-- ==== Sys2Proof/Word.lean ====
section
/-! DEFINITION. The block's data widths (00_scope.md R7, R8): bytes, 16-bit lengths and indices, the 17-bit error length. -/

namespace Sys2Proof

/-- One element of the receive stream (R7, R8): an unsigned byte, bit 7 most significant. -/
abbrev Byte := BitVec 8

/-- A payload length or a payload index (R7: 16 bits). -/
abbrev Half := BitVec 16

/-- The width of the port `err_len` (R7: it holds up to 65540). -/
abbrev ErrLen := BitVec 17

end Sys2Proof
end

