-- ==== Sys2Proof/Config.lean ====
section
/-! DEFINITION. The protocol's constants (00_scope.md R7), and the free values: what the environment does when the model's queue
of inputs is empty. -/

namespace Sys2Proof.Config

/-- Byte 0 of every frame (R7, R71). -/
def startMarker : Byte := 0xFF

/-- Byte 1 of an Answer frame (R7, R72). -/
def answerMarker : Byte := 0xFF

/-- Byte 1 of an Async frame (R7, R73). -/
def asyncMarker : Byte := 0xFE

/-- Bytes 0 to 4 of a frame, both shapes (R7, R70). -/
def headerLength : Nat := 5

/-- FREE VALUE (log 2): whether the n-th undetermined stimulus is a call of the reference's Parse rather than a clock edge. -/
opaque freeParseCall : Nat → Bool

/-- FREE VALUE (log 2): the port `rst` at the n-th undetermined edge (R61: the environment drives it). -/
opaque freeRst : Nat → Bool

/-- FREE VALUE (log 2): the port `in_valid` at the n-th undetermined edge (R61: a byte may come in any cycle). -/
opaque freeInValid : Nat → Bool

/-- FREE VALUE (log 2): the port `in_data` at the n-th undetermined edge (R151: an unread input is any value too). -/
opaque freeInData : Nat → Byte

end Sys2Proof.Config
end

