-- ==== Sys2Proof/Syntax.lean ====
section
/-! DEFINITION. One constructor per row of spec/opcode_table.json (30_encoding.md R81). Operands are the key's free bits. -/

namespace Sys2Proof

/-- The rows of the block's decode map, of its step selection, and of the reference parser's prefix decode. -/
inductive Instr where
  /-- IDLE_SOP (`000 11111111`, R154): the start marker, in state IDLE. -/
  | idleSop
  /-- IDLE_BAD_START (`000`, another byte, R154). -/
  | idleBadStart (b : Byte)
  /-- SHAPE_ANSWER (`001 11111111`, R155): the answer marker. -/
  | shapeAnswer
  /-- SHAPE_ASYNC (`001 11111110`, R155): the async marker. -/
  | shapeAsync
  /-- SHAPE_UNKNOWN (`001`, another byte, R155). -/
  | shapeUnknown (b : Byte)
  /-- B2_CODE (`010`, any byte, R156): response code or message id. -/
  | b2Code (b : Byte)
  /-- B3_SEQ_LENHI (`011`, any byte, R157): sequence number or length high byte. -/
  | b3SeqLenhi (b : Byte)
  /-- B4_LEN (`100`, any byte, R158): length or length low byte. -/
  | b4Len (b : Byte)
  /-- PAY_BYTE (`101`, any byte, R159): a payload byte. -/
  | payByte (b : Byte)
  /-- CHK_BYTE (`110`, any byte, R160): the checksum byte. -/
  | chkByte (b : Byte)
  /-- ST7_RESERVED (`111`, any byte, R161): the reserved state, which acts as IDLE. -/
  | st7Reserved (b : Byte)
  /-- RESET (`1x`, R150, R230); the operand is the ignored `in_valid` bit (log 10). -/
  | reset (inValid : Bool)
  /-- IDLE_CYCLE (`00`, R150, R152). -/
  | idleCycle
  /-- ACCEPT (`01`, R150, R153); the byte is on the port `in_data`, not in the key. -/
  | accept
  /-- REF_ANSWER (`FF FF`, R124): the reference's Answer path. -/
  | refAnswer
  /-- REF_ASYNC (`FF FE`, R125): the reference's Async path. -/
  | refAsync
  /-- REF_UNKNOWN_SHAPE (`FF`, another byte, R123); the operand is byte 1. -/
  | refUnknownShape (b1 : Byte)
  /-- REF_BAD_START (byte 0 not `FF`, R122); the operands are bytes 0 and 1. -/
  | refBadStart (b0 b1 : Byte)
  deriving DecidableEq, Repr

end Sys2Proof
end

