-- ==== Sys2Proof/WellFormed.lean ====
section
/-! DEFINITION. Which terms of Instr stand for a key of the table: a row of lower priority takes only the bytes that no row of
higher priority takes (30_encoding.md R77, R81). -/

namespace Sys2Proof

/-- A row's operands lie outside the patterns of the rows above it. -/
def Instr.wf : Instr → Bool
  | .idleSop => true
  | .idleBadStart b => b != Config.startMarker
  | .shapeAnswer => true
  | .shapeAsync => true
  | .shapeUnknown b => b != Config.answerMarker && b != Config.asyncMarker
  | .b2Code _ => true
  | .b3SeqLenhi _ => true
  | .b4Len _ => true
  | .payByte _ => true
  | .chkByte _ => true
  | .st7Reserved _ => true
  | .reset _ => true
  | .idleCycle => true
  | .accept => true
  | .refAnswer => true
  | .refAsync => true
  | .refUnknownShape b1 => b1 != Config.answerMarker && b1 != Config.asyncMarker
  | .refBadStart b0 _ => b0 != Config.startMarker

end Sys2Proof
end

