-- ==== Sys2Proof/Decode.lean ====
section
/-! DEFINITION. Keys, the decoder (total on keys, and on numbers and buffers a refusal by name), the encoder, and the opcode table
itself with its masks and priorities (30_encoding.md R77, R81; 42_fsm_operations.md R150). -/

namespace Sys2Proof

/-- The three key formats of the table (R81). -/
inductive Format where
  /-- `st[2:0] ++ in_data[7:0]`. -/
  | stByte
  /-- `rst ++ in_valid`. -/
  | ctl
  /-- `buffer[0] ++ buffer[1]`, the first byte in the upper bits. -/
  | prefix16
  deriving DecidableEq, Repr

/-- A key of the table, with its format. -/
inductive Key where
  | stByte (k : BitVec 11)
  | ctl (k : BitVec 2)
  | prefix16 (k : BitVec 16)
  deriving DecidableEq, Repr

/-- Why a number or a buffer gives no key. -/
inductive DecodeError where
  /-- A `ctl` number with a bit above bit 1 set. -/
  | notACtlKey
  /-- A number too wide for its format. -/
  | keyTooWide
  /-- A width that no format of the table has. -/
  | noSuchFormat
  /-- A buffer of fewer than 2 bytes: too short to classify (41_reference_parser.md R121). -/
  | needsTwoBytes
  deriving DecidableEq, Repr

/-- The `st_byte` key of a state code and a byte (R81). -/
def stByteKey (st : BitVec 3) (b : Byte) : BitVec 11 := st ++ b

/-- The `ctl` key (R150): `rst` in bit 1, `in_valid` in bit 0. -/
def ctlKey (rst inValid : Bool) : BitVec 2 := BitVec.ofBool rst ++ BitVec.ofBool inValid

/-- The `prefix16` key (R81). -/
def prefixKey (b0 b1 : Byte) : BitVec 16 := b0 ++ b1

/-- The `st_byte` map of R81, by state and then by priority. -/
def decodeStByte (k : BitVec 11) : Instr :=
  let b : Byte := k.extractLsb' 0 8
  match (k.extractLsb' 8 3).toNat with
  | 0 => if b = Config.startMarker then .idleSop else .idleBadStart b
  | 1 =>
    if b = Config.answerMarker then .shapeAnswer
    else if b = Config.asyncMarker then .shapeAsync
    else .shapeUnknown b
  | 2 => .b2Code b
  | 3 => .b3SeqLenhi b
  | 4 => .b4Len b
  | 5 => .payByte b
  | 6 => .chkByte b
  | _ => .st7Reserved b

/-- The step selection of R150: `rst` first, then `in_valid`. -/
def decodeCtl (k : BitVec 2) : Instr :=
  if k.getLsbD 1 then .reset (k.getLsbD 0)
  else if k.getLsbD 0 then .accept
  else .idleCycle

/-- The prefix decode of R77, first match wins. -/
def decodePrefix (k : BitVec 16) : Instr :=
  let b0 : Byte := k.extractLsb' 8 8
  let b1 : Byte := k.extractLsb' 0 8
  if b0 = Config.startMarker then
    if b1 = Config.answerMarker then .refAnswer
    else if b1 = Config.asyncMarker then .refAsync
    else .refUnknownShape b1
  else .refBadStart b0 b1

/-- The row a key selects. Every key of every format has one. -/
def decodeKey : Key → Instr
  | .stByte k => decodeStByte k
  | .ctl k => decodeCtl k
  | .prefix16 k => decodePrefix k

/-- The reference's decode of its buffer: the first two bytes, received order (R77), or the wait of R121. -/
def decodeBuffer : List Byte → Except DecodeError Instr
  | b0 :: b1 :: _ => .ok (decodeKey (.prefix16 (prefixKey b0 b1)))
  | _ => .error .needsTwoBytes

/-- The key a number of the table stands for, given its width in bits. Numbers of 16 bits are shared by two formats: below
0x800 they are read as `st_byte` keys, the others as `prefix16` keys (log 7, DESIGN CHOICE). -/
def keyOfWord (nbits w : Nat) : Except DecodeError Key :=
  if nbits ≤ 8 then
    if w < 4 then .ok (.ctl (BitVec.ofNat 2 w)) else .error .notACtlKey
  else if nbits ≤ 16 then
    if w < 2048 then .ok (.stByte (BitVec.ofNat 11 w))
    else if w < 65536 then .ok (.prefix16 (BitVec.ofNat 16 w))
    else .error .keyTooWide
  else .error .noSuchFormat

/-- The row a number of the table stands for, or the reason it has none. -/
def decodeWord (nbits w : Nat) : Except DecodeError Instr :=
  (keyOfWord nbits w).map decodeKey

/-- What this decoder reads from a number of spec/opcode_table.json. -/
def decodeTableWord (nbits w : Nat) : Option Instr :=
  (decodeWord nbits w).toOption

/-- The key of a row with its operands, from the table of R81, R77 and R150. -/
def encode : Instr → Key
  | .idleSop => .stByte (stByteKey 0 0xFF)
  | .idleBadStart b => .stByte (stByteKey 0 b)
  | .shapeAnswer => .stByte (stByteKey 1 0xFF)
  | .shapeAsync => .stByte (stByteKey 1 0xFE)
  | .shapeUnknown b => .stByte (stByteKey 1 b)
  | .b2Code b => .stByte (stByteKey 2 b)
  | .b3SeqLenhi b => .stByte (stByteKey 3 b)
  | .b4Len b => .stByte (stByteKey 4 b)
  | .payByte b => .stByte (stByteKey 5 b)
  | .chkByte b => .stByte (stByteKey 6 b)
  | .st7Reserved b => .stByte (stByteKey 7 b)
  | .reset v => .ctl (ctlKey true v)
  | .idleCycle => .ctl (ctlKey false false)
  | .accept => .ctl (ctlKey false true)
  | .refAnswer => .prefix16 (prefixKey 0xFF 0xFF)
  | .refAsync => .prefix16 (prefixKey 0xFF 0xFE)
  | .refUnknownShape b1 => .prefix16 (prefixKey 0xFF b1)
  | .refBadStart b0 b1 => .prefix16 (prefixKey b0 b1)

/-- A key's format. -/
def Key.format : Key → Format
  | .stByte _ => .stByte
  | .ctl _ => .ctl
  | .prefix16 _ => .prefix16

/-- A key as a number, bit 0 least significant, as the table's match and mask read it. -/
def Key.toNat : Key → Nat
  | .stByte k => k.toNat
  | .ctl k => k.toNat
  | .prefix16 k => k.toNat

/-- A row of spec/opcode_table.json: its format, match, mask and priority (lower numbers first; a `ctl` row, which the table
gives none, has 1). -/
structure TableRow where
  format : Format
  pattern : Nat
  mask : Nat
  priority : Nat
  deriving DecidableEq, Repr

/-- A key has the row's format and agrees with its pattern under its mask. -/
def TableRow.covers (r : TableRow) (k : Key) : Bool :=
  decide (k.format = r.format) && (k.toNat &&& r.mask == r.pattern)

/-- The row of spec/opcode_table.json a constructor stands for. -/
def Instr.tableRow : Instr → TableRow
  | .idleSop => ⟨.stByte, 0x0FF, 0x7FF, 1⟩
  | .idleBadStart _ => ⟨.stByte, 0x000, 0x700, 2⟩
  | .shapeAnswer => ⟨.stByte, 0x1FF, 0x7FF, 1⟩
  | .shapeAsync => ⟨.stByte, 0x1FE, 0x7FF, 1⟩
  | .shapeUnknown _ => ⟨.stByte, 0x100, 0x700, 2⟩
  | .b2Code _ => ⟨.stByte, 0x200, 0x700, 1⟩
  | .b3SeqLenhi _ => ⟨.stByte, 0x300, 0x700, 1⟩
  | .b4Len _ => ⟨.stByte, 0x400, 0x700, 1⟩
  | .payByte _ => ⟨.stByte, 0x500, 0x700, 1⟩
  | .chkByte _ => ⟨.stByte, 0x600, 0x700, 1⟩
  | .st7Reserved _ => ⟨.stByte, 0x700, 0x700, 1⟩
  | .reset _ => ⟨.ctl, 0b10, 0b10, 1⟩
  | .idleCycle => ⟨.ctl, 0b00, 0b11, 1⟩
  | .accept => ⟨.ctl, 0b01, 0b11, 1⟩
  | .refAnswer => ⟨.prefix16, 0xFFFF, 0xFFFF, 1⟩
  | .refAsync => ⟨.prefix16, 0xFFFE, 0xFFFF, 2⟩
  | .refUnknownShape _ => ⟨.prefix16, 0xFF00, 0xFF00, 3⟩
  | .refBadStart _ _ => ⟨.prefix16, 0x0000, 0x0000, 4⟩

end Sys2Proof
end

