-- ==== Sys2Proof/Machine/State.lean ====
section
/-! DEFINITION. The machine's state as plain data: the block's registers and ports (10_state.md R21 to R28), the receive stream and
the events (R31, R50), the reference parser's buffer and events (41_reference_parser.md), and the environment's queue. -/

namespace Sys2Proof.Machine

/-- The parse position `st` (10_state.md R24), one constructor per 3-bit code, the reserved one included. -/
inductive St where
  /-- 0: the next byte is byte 0, a candidate start marker. -/
  | idle
  /-- 1: the next byte is byte 1, the shape selector. -/
  | shape
  /-- 2: the next byte is byte 2, response code or message id. -/
  | b2
  /-- 3: the next byte is byte 3, sequence number or length high byte. -/
  | b3
  /-- 4: the next byte is byte 4, length or length low byte. -/
  | b4
  /-- 5: the next byte is a payload byte, index `idx`. -/
  | pay
  /-- 6: the next byte is the checksum byte. -/
  | chk
  /-- 7: reserved; behaves as IDLE (R161). -/
  | reserved7
  deriving DecidableEq, Repr, Inhabited

/-- The two frame shapes (R25). -/
inductive Shape where
  /-- 0: byte 1 was 0xFF. -/
  | answer
  /-- 1: byte 1 was 0xFE. -/
  | async
  deriving DecidableEq, Repr, Inhabited

/-- The framing errors (R32). -/
inductive ErrorKind where
  | badStartMarker
  | unknownShape
  | checksumMismatch
  | badLength
  deriving DecidableEq, Repr, Inhabited

/-- One output report of the block (R31). -/
inductive Event where
  /-- Payload byte `b` at index `i` of the current frame, before validation. -/
  | payloadByte (i : Half) (b : Byte)
  /-- The current frame is complete and its checksum matched. -/
  | frame (shape : Shape) (code seq : Byte) (len : Half) (chk : Byte)
  /-- A framing error that discards `n` bytes. -/
  | error (kind : ErrorKind) (n : Nat)
  deriving DecidableEq, Repr, Inhabited

/-- The reference's frame records (41_reference_parser.md R120). An Answer frame's `payloadLength` is its byte zero-extended to
16 bits, as R124 computes it (log 12). -/
inductive Frame where
  | answer (responseCode sequence : Byte) (payloadLength : Half) (payload : List Byte) (checksum : Byte)
  | async (messageId : Byte) (payloadLength : Half) (payload : List Byte) (checksum : Byte)
  deriving DecidableEq, Repr, Inhabited

/-- One entry of the reference's event list (R129). -/
inductive RefEvent where
  | error (kind : ErrorKind) (n : Nat)
  | frame (f : Frame)
  deriving DecidableEq, Repr, Inhabited

/-- The triple `Parse` returns (R120). -/
structure ParseResult where
  consumed : Nat
  frame : Option Frame
  error : Option ErrorKind
  deriving DecidableEq, Repr, Inhabited

/-- `(0, None, None)`: wait for more bytes (R121, R127). -/
def ParseResult.wait : ParseResult := ⟨0, none, none⟩

/-- The reference semantics' state: the ReceiveBuffer (R50), the drain loop's event list (R129), the last call's result (R120). -/
structure RefState where
  buffer : List Byte
  events : List RefEvent
  last : ParseResult
  deriving DecidableEq, Repr, Inhabited

/-- The input ports sampled at an edge (R21); `clk` is the step itself. -/
structure InPorts where
  rst : Bool
  inValid : Bool
  inData : Byte
  deriving DecidableEq, Repr, Inhabited

/-- The output registers, one behind each output port (R22, R28). -/
structure OutPorts where
  plValid : Bool
  plData : Byte
  plIndex : Half
  frmValid : Bool
  frmShape : BitVec 1
  frmCode : Byte
  frmSeq : Byte
  frmLen : Half
  frmChk : Byte
  errBadStart : Bool
  errUnknownShape : Bool
  errChecksum : Bool
  errBadLength : Bool
  errLen : ErrLen
  deriving DecidableEq, Repr, Inhabited

/-- The state registers (R23). -/
structure Regs where
  st : St
  shape : Shape
  code : Byte
  seq : Byte
  len : Half
  idx : Half
  acc : Byte
  deriving DecidableEq, Repr, Inhabited

/-- What the environment does next (log 1): a rising clock edge with these port values, or a call of the reference's `Parse` by
its loop. -/
inductive Stimulus where
  | edge (p : InPorts)
  | parseCall
  deriving DecidableEq, Repr, Inhabited

/-- The whole state. `regs` and `out` are the block; `inp` its sampled inputs; `stream` and `history` the bytes accepted and the
events emitted since the last reset, which no rule of the block reads (log 4); `ref` the reference; `stimuli` and `draws` the
environment. -/
structure State where
  regs : Regs
  out : OutPorts
  inp : InPorts
  stream : List Byte
  history : List Event
  ref : RefState
  stimuli : List Stimulus
  draws : Nat
  deriving DecidableEq, Repr, Inhabited

/-- Why the machine stops: nothing does. A framing error is an event, not a trap (60_exceptions.md R200), and no operation is
refused in any mode (R211), so the type has no constructor (log 17). -/
inductive Fault where
  deriving DecidableEq, Repr

/-- Why an instruction has no meaning. -/
inductive Refusal where
  /-- Raised by an arm of exec whose row has no meaning yet; safe. Every row has one, so no arm raises it. -/
  | notModelled (mnemonic : String)
  deriving DecidableEq, Repr

/-- Reset values of the state registers (70_reset_and_hazards.md R230, R231). -/
def Regs.reset : Regs :=
  { st := .idle, shape := .answer, code := 0, seq := 0, len := 0, idx := 0, acc := 0 }

/-- Every output register 0: its reset value (R231), and what a step with no event writes (R172). -/
def OutPorts.zero : OutPorts :=
  { plValid := false, plData := 0, plIndex := 0
    frmValid := false, frmShape := 0, frmCode := 0, frmSeq := 0, frmLen := 0, frmChk := 0
    errBadStart := false, errUnknownShape := false, errChecksum := false, errBadLength := false, errLen := 0 }

/-- The reference before any byte: the empty ReceiveBuffer (R230), no events (R129), and `Parse([])` (R121). -/
def RefState.empty : RefState := { buffer := [], events := [], last := .wait }

/-- The input ports in State.reset: a value of the model's own (log 5, DESIGN CHOICE). An edge's step overwrites them first. -/
def InPorts.low : InPorts := { rst := false, inValid := false, inData := 0 }

/-- The machine right after reset (R231), the environment having lined up nothing. -/
def State.reset : State :=
  { regs := .reset, out := .zero, inp := .low, stream := [], history := [], ref := .empty, stimuli := [], draws := 0 }

/-- FREE VALUE (log 11): the machine after power-up and before the first reset edge, which is unspecified (R234). -/
opaque State.powerUp : State

end Sys2Proof.Machine
end

