-- ==== Sys2Proof/Machine/Operands.lean ====
section
/-! DEFINITION. Operand forms: the codes of `st`, `shape` and the errors, and how the length field is assembled. -/

namespace Sys2Proof.Machine

/-- The 3-bit code of `st` (10_state.md R24). -/
def St.bits : St → BitVec 3
  | .idle => 0
  | .shape => 1
  | .b2 => 2
  | .b3 => 3
  | .b4 => 4
  | .pay => 5
  | .chk => 6
  | .reserved7 => 7

/-- The state a 3-bit code stands for (R24). -/
def St.ofBits (v : BitVec 3) : St :=
  match v.toNat with
  | 0 => .idle
  | 1 => .shape
  | 2 => .b2
  | 3 => .b3
  | 4 => .b4
  | 5 => .pay
  | 6 => .chk
  | _ => .reserved7

/-- The code of `shape` and `frm_shape` (R25). -/
def Shape.bit : Shape → BitVec 1
  | .answer => 0
  | .async => 1

/-- The shape a `frm_shape` code stands for (R25). -/
def Shape.ofBit (v : BitVec 1) : Shape := if v = 0 then .answer else .async

/-- The numeric code of an error kind in an event log (R32). -/
def ErrorKind.code : ErrorKind → Nat
  | .badStartMarker => 1
  | .unknownShape => 2
  | .checksumMismatch => 3
  | .badLength => 4

/-- `hi ++ lo` of two bytes (00_scope.md R8; 20_memory.md R52): `hi * 256 + lo`. -/
def concatBytes (hi lo : Byte) : Half := hi ++ lo

/-- `zext_16` (R8). -/
def zext16 (v : Byte) : Half := v.setWidth 16

/-- `len[15:8]`. -/
def lengthHigh (len : Half) : Byte := len.extractLsb' 8 8

/-- `len[15:8] <- v`: the low byte keeps its value (42_fsm_operations.md R157). -/
def setLengthHigh (len : Half) (v : Byte) : Half := concatBytes v (len.extractLsb' 0 8)

/-- The length field from bytes 3 and 4 of a frame (30_encoding.md R75). -/
def frameLengthField (shape : Shape) (byte3 byte4 : Byte) : Half :=
  match shape with
  | .answer => zext16 byte4
  | .async => concatBytes byte3 byte4

/-- What B3 puts in `seq` (R157): byte 3 of an Answer frame, 0x00 for Async. -/
def sequenceOf (shape : Shape) (byte3 : Byte) : Byte :=
  match shape with
  | .answer => byte3
  | .async => 0

/-- What B3 puts in `len[15:8]` (R157): 0x00 for Answer, byte 3 of an Async frame. -/
def lengthHighOf (shape : Shape) (byte3 : Byte) : Byte :=
  match shape with
  | .answer => 0
  | .async => byte3

/-- R159's test `idx + 1 == len - 1`, in exact integers (R8): the byte at `idx` is the last payload byte. -/
def isLastPayload (idx len : Half) : Bool :=
  decide ((idx.toNat : Int) + 1 = (len.toNat : Int) - 1)

end Sys2Proof.Machine
end

