-- ==== Sys2Proof/Machine/Flags.lean ====
section
/-! DEFINITION. The block's flags are its strobes: the output registers a step writes from its events (42_fsm_operations.md R172),
and what a reader of the ports takes from them (R173). -/

namespace Sys2Proof.Machine

/-- One event's writes to the output registers (R172). -/
def setPorts (o : OutPorts) : Event → OutPorts
  | .payloadByte i b => { o with plValid := true, plData := b, plIndex := i }
  | .frame sh c q L k =>
    { o with frmValid := true, frmShape := sh.bit, frmCode := c, frmSeq := q, frmLen := L, frmChk := k }
  | .error .badStartMarker n => { o with errBadStart := true, errLen := BitVec.ofNat 17 n }
  | .error .unknownShape n => { o with errUnknownShape := true, errLen := BitVec.ofNat 17 n }
  | .error .checksumMismatch n => { o with errChecksum := true, errLen := BitVec.ofNat 17 n }
  | .error .badLength n => { o with errBadLength := true, errLen := BitVec.ofNat 17 n }

/-- `Ports(E)` (R172): every output register 0, then each event in order. -/
def ports (es : List Event) : OutPorts := es.foldl setPorts OutPorts.zero

/-- The events of one step as a reader of the ports takes them (R173): UnknownShape before BadStartMarker. -/
def observe (o : OutPorts) : List Event :=
  (if o.plValid then [.payloadByte o.plIndex o.plData] else []) ++
  (if o.frmValid then [.frame (Shape.ofBit o.frmShape) o.frmCode o.frmSeq o.frmLen o.frmChk] else []) ++
  (if o.errUnknownShape then [.error .unknownShape o.errLen.toNat] else []) ++
  (if o.errBadStart then [.error .badStartMarker o.errLen.toNat] else []) ++
  (if o.errChecksum then [.error .checksumMismatch o.errLen.toNat] else []) ++
  (if o.errBadLength then [.error .badLength o.errLen.toNat] else [])

end Sys2Proof.Machine
end

