-- ==== Sys2Proof/Machine/Ops.lean ====
section
/-! DEFINITION. The shared operations: byte sequences (00_scope.md R9), the checksum and its validator (40_checksum.md), accepting a
byte, reporting framing errors (60_exceptions.md), and the reset of everything a run is made of. -/

namespace Sys2Proof.Machine

/-- `s[i..j)` (R9): elements `i` to `j - 1`; empty when `j <= i`. -/
def slice (s : List Byte) (i j : Nat) : List Byte := (s.take j).drop i

/-- `sum(s)` (R9): the integer sum. -/
def byteSum (s : List Byte) : Nat := (s.map BitVec.toNat).sum

/-- `Checksum(s)` (R100): the sum reduced mod 256, then XORed with 0xFF. -/
def checksum (s : List Byte) : Byte := BitVec.ofNat 8 (byteSum s % 256) ^^^ 0xFF

/-- `Valid` (R104): the received checksum byte `c` against the covered bytes. -/
def checksumValid (covered : List Byte) (c : Byte) : Bool := c == checksum covered

/-- The state machine's form of the validator (R104): `c == acc ⊕ 0xFF`. -/
def accValid (acc c : Byte) : Bool := c == acc ^^^ 0xFF

/-- The running sum's update `acc +₈ b` (R8, R103): carries out of bit 7 are discarded. -/
def addMod256 (acc b : Byte) : Byte := acc + b

/-- What every Accept step does around its state rule (R153): the registers take their new values, the output registers are
written from the step's events, the byte is part of the receive stream and of the reference's buffer (20_memory.md R50), and the
events join the run's event list (R31). -/
def acceptByte (b : Byte) (g : Regs) (es : List Event) (s : State) : State :=
  { s with
    regs := g
    out := ports es
    stream := s.stream ++ [b]
    history := s.history ++ es
    ref := { s.ref with buffer := s.ref.buffer ++ [b] } }

/-- A framing error is an event, not a trap (R200): the errors are reported in order, nothing is saved, no mode changes, and the
next byte is a candidate start marker (R207). `g` holds what the state rule itself wrote. -/
def reportErrors (b : Byte) (g : Regs) (errs : List (ErrorKind × Nat)) (s : State) : State :=
  acceptByte b { g with st := .idle } (errs.map fun e => .error e.1 e.2) s

/-- R154, which R161 repeats for the reserved state: search for the start marker. -/
def searchMarker (b : Byte) (s : State) : State :=
  if b = Config.startMarker then acceptByte b { s.regs with st := .shape } [] s
  else reportErrors b s.regs [(.badStartMarker, 1)] s

/-- What R155 does with a marker byte: the shape is chosen and the header follows. -/
def enterFrame (b : Byte) (shape : Shape) (s : State) : State :=
  acceptByte b { s.regs with shape := shape, st := .b2 } [] s

/-- R230: every state register and output register takes its reset value, no event is emitted, and a new run begins with an
empty receive stream, event list and ReceiveBuffer (R50, R236; log 16). -/
def resetBlock (s : State) : State :=
  { s with
    regs := { st := .idle, shape := .answer, code := 0, seq := 0, len := 0, idx := 0, acc := 0 }
    out := ports []
    stream := []
    history := []
    ref := { buffer := [], events := [], last := .wait } }

/-- R152: every state register keeps its value and every output register is written 0. -/
def holdBlock (s : State) : State := { s with out := ports [] }

end Sys2Proof.Machine
end

