-- ==== Sys2Proof/Machine/Body.lean ====
section
/-! DEFINITION. The payload state (42_fsm_operations.md R159) and the checksum state, which is the validator (R160). -/

namespace Sys2Proof.Machine

/-- PAY_BYTE (R159): `PayloadByte(idx, b)`, the byte is summed, `idx <- idx + 1`; the last payload byte leads to CHK. The test
reads the pre-edge `idx`. `idx` is stored in 16 bits (log 6). -/
def execPayByte (b : Byte) (s : State) : Host.Outcome State Fault Refusal :=
  let g := s.regs
  .next (acceptByte b
    { g with
      acc := addMod256 g.acc b
      idx := g.idx + 1
      st := if isLastPayload g.idx g.len then .chk else .pay }
    [.payloadByte g.idx b] s)

/-- CHK_BYTE (R160, R203): the frame is committed if `b == acc ⊕ 0xFF`, and else all its `5 + len` bytes are discarded; `st <- IDLE`
either way. -/
def execChkByte (b : Byte) (s : State) : Host.Outcome State Fault Refusal :=
  let g := s.regs
  if accValid g.acc b then
    .next (acceptByte b { g with st := .idle } [.frame g.shape g.code g.seq g.len b] s)
  else .next (reportErrors b g [(.checksumMismatch, Config.headerLength + g.len.toNat)] s)

end Sys2Proof.Machine
end

