-- ==== Sys2Proof/Machine/Header.lean ====
section
/-! DEFINITION. The header states: B2 (42_fsm_operations.md R156), B3 (R157) and B4 (R158). -/

namespace Sys2Proof.Machine

/-- B2_CODE (R156): `code <- b; acc <- b; st <- B3`. `acc` is overwritten, not added to. -/
def execB2Code (b : Byte) (s : State) : Host.Outcome State Fault Refusal :=
  .next (acceptByte b { s.regs with code := b, acc := b, st := .b3 } [] s)

/-- B3_SEQ_LENHI (R157): the byte is `seq` (Answer) or `len[15:8]` (Async), the other one takes 0x00, and the byte is summed. -/
def execB3SeqLenhi (b : Byte) (s : State) : Host.Outcome State Fault Refusal :=
  let g := s.regs
  .next (acceptByte b
    { g with
      seq := sequenceOf g.shape b
      len := setLengthHigh g.len (lengthHighOf g.shape b)
      acc := addMod256 g.acc b
      st := .b4 } [] s)

/-- The length B4 assembles (R158, R75): the byte zero-extended (Answer), or `len[15:8] ++ b` (Async). -/
def newLength (g : Regs) (b : Byte) : Half := frameLengthField g.shape (lengthHigh g.len) b

/-- B4_LEN (R158, R204): the length is complete; 0 is BadLength with 5 bytes discarded, 1 is an empty payload, others have one. -/
def execB4Len (b : Byte) (s : State) : Host.Outcome State Fault Refusal :=
  let L := newLength s.regs b
  let g := { s.regs with len := L, acc := addMod256 s.regs.acc b, idx := 0 }
  if L = 0 then .next (reportErrors b g [(.badLength, Config.headerLength)] s)
  else if L = 1 then .next (acceptByte b { g with st := .chk } [] s)
  else .next (acceptByte b { g with st := .pay } [] s)

end Sys2Proof.Machine
end

