-- ==== Sys2Proof/Machine/Marker.lean ====
section
/-! DEFINITION. The marker states: IDLE (42_fsm_operations.md R154), SHAPE (R155) and the reserved state 7 (R161). Each meaning is an
Accept step (R153) on the row's byte. -/

namespace Sys2Proof.Machine

/-- IDLE_SOP (R154): the start marker; `st <- SHAPE`, no event. -/
def execIdleSop (s : State) : Host.Outcome State Fault Refusal :=
  .next (acceptByte Config.startMarker { s.regs with st := .shape } [] s)

/-- IDLE_BAD_START (R154, R201): `Error(BadStartMarker, 1)`; `st <- IDLE`. -/
def execIdleBadStart (b : Byte) (s : State) : Host.Outcome State Fault Refusal :=
  .next (reportErrors b s.regs [(.badStartMarker, 1)] s)

/-- SHAPE_ANSWER (R155): `shape <- 0; st <- B2`. -/
def execShapeAnswer (s : State) : Host.Outcome State Fault Refusal :=
  .next (enterFrame Config.answerMarker .answer s)

/-- SHAPE_ASYNC (R155): `shape <- 1; st <- B2`. -/
def execShapeAsync (s : State) : Host.Outcome State Fault Refusal :=
  .next (enterFrame Config.asyncMarker .async s)

/-- SHAPE_UNKNOWN (R155, R202): UnknownShape for the start marker, then BadStartMarker for the byte itself; `st <- IDLE`. -/
def execShapeUnknown (b : Byte) (s : State) : Host.Outcome State Fault Refusal :=
  .next (reportErrors b s.regs [(.unknownShape, 1), (.badStartMarker, 1)] s)

/-- ST7_RESERVED (R161): exactly R154, as if `st = 0`. -/
def execSt7Reserved (b : Byte) (s : State) : Host.Outcome State Fault Refusal :=
  .next (searchMarker b s)

end Sys2Proof.Machine
end

