-- ==== Sys2Proof/Machine/Control.lean ====
section
/-! DEFINITION. The step selection's three steps (42_fsm_operations.md R150): Reset (R230), Idle (R152) and Accept (R153). -/

namespace Sys2Proof.Machine

/-- RESET (70_reset_and_hazards.md R230): `in_valid` and `in_data` are ignored. -/
def execReset (_inValid : Bool) (s : State) : Host.Outcome State Fault Refusal :=
  .next (resetBlock s)

/-- IDLE_CYCLE (R152): any number may fall inside a frame; there is no timeout (R243). -/
def execIdleCycle (s : State) : Host.Outcome State Fault Refusal :=
  .next (holdBlock s)

/-- State IDLE's rule (R154) with the byte `b`. -/
def acceptIdle (b : Byte) (s : State) : Host.Outcome State Fault Refusal :=
  if b = Config.startMarker then execIdleSop s else execIdleBadStart b s

/-- State SHAPE's rule (R155) with the byte `b`. -/
def acceptShape (b : Byte) (s : State) : Host.Outcome State Fault Refusal :=
  if b = Config.answerMarker then execShapeAnswer s
  else if b = Config.asyncMarker then execShapeAsync s
  else execShapeUnknown b s

/-- ACCEPT (R153): the byte on `in_data` is handled by the rule of the current `st`. -/
def execAccept (s : State) : Host.Outcome State Fault Refusal :=
  match s.regs.st with
  | .idle => acceptIdle s.inp.inData s
  | .shape => acceptShape s.inp.inData s
  | .b2 => execB2Code s.inp.inData s
  | .b3 => execB3SeqLenhi s.inp.inData s
  | .b4 => execB4Len s.inp.inData s
  | .pay => execPayByte s.inp.inData s
  | .chk => execChkByte s.inp.inData s
  | .reserved7 => execSt7Reserved s.inp.inData s

end Sys2Proof.Machine
end

