-- ==== Sys2Proof/Machine/Reference.lean ====
section
/-! DEFINITION. The reference semantics (41_reference_parser.md): Parse, the drain loop and its guarded form, the comparison of the
block's events with the reference's (42_fsm_operations.md R170, R174), and the meanings of the four `prefix16` rows. -/

namespace Sys2Proof.Machine

/-- The record of a parsed frame (R124, R125) from its header bytes 2 and 3, its length, payload and checksum byte. -/
def frameRecord (shape : Shape) (byte2 byte3 : Byte) (len : Half) (payload : List Byte) (chk : Byte) : Frame :=
  match shape with
  | .answer => .answer byte2 byte3 len payload chk
  | .async => .async byte2 len payload chk

/-- R124's path once the header is there; R125 is "the same as rule R124 with these changes", which `shape` selects. -/
def parseBody (shape : Shape) (buffer : List Byte) (byte2 byte3 byte4 : Byte) : ParseResult :=
  let L := frameLengthField shape byte3 byte4
  let n := Config.headerLength + L.toNat
  if L = 0 then ⟨Config.headerLength, none, some .badLength⟩
  else if buffer.length < n then .wait
  else
    let payload := slice buffer 5 (4 + L.toNat)
    let c := buffer.getD (4 + L.toNat) 0
    if checksumValid (slice buffer 2 (4 + L.toNat)) c then ⟨n, some (frameRecord shape byte2 byte3 L payload c), none⟩
    else ⟨n, none, some .checksumMismatch⟩

/-- The Answer and the Async path (R124, R125, R126): fewer than 5 bytes wait. -/
def parsePath (shape : Shape) (buffer : List Byte) : ParseResult :=
  match buffer with
  | _ :: _ :: byte2 :: byte3 :: byte4 :: _ => parseBody shape buffer byte2 byte3 byte4
  | _ => .wait

/-- R122's result. -/
def badStartResult : ParseResult := ⟨1, none, some .badStartMarker⟩

/-- R123's result for an unknown selector byte. -/
def unknownShapeResult : ParseResult := ⟨1, none, some .unknownShape⟩

/-- `Parse(buffer)` (R120 to R126). -/
def parse (buffer : List Byte) : ParseResult :=
  match buffer with
  | b0 :: b1 :: _ =>
    if b0 ≠ Config.startMarker then badStartResult
    else if b1 = Config.answerMarker then parsePath .answer buffer
    else if b1 = Config.asyncMarker then parsePath .async buffer
    else unknownShapeResult
  | _ => .wait

/-- What the drain loop appends to its event list for one result (R129): nothing for a wait. -/
def ParseResult.events (r : ParseResult) : List RefEvent :=
  if r.consumed = 0 then []
  else
    (match r.error with | some k => [.error k r.consumed] | none => []) ++
    (match r.frame with | some f => [.frame f] | none => [])

/-- The drain loop of R129, with the most iterations it may take. -/
def drainFuel : Nat → List Byte → List RefEvent × List Byte
  | 0, b => ([], b)
  | fuel + 1, b =>
    let r := parse b
    if r.consumed = 0 then ([], b)
    else
      let rest := drainFuel fuel (b.drop r.consumed)
      (r.events ++ rest.1, rest.2)

/-- `RefDrain(b)` (R129): at most `len(b)` iterations run. -/
def refDrain (b : List Byte) : List RefEvent × List Byte := drainFuel b.length b

/-- `RefEvents(s)` (R130). -/
def refEvents (s : List Byte) : List RefEvent := (refDrain s).1

/-- `RefRem(s)` (R130). -/
def refRem (s : List Byte) : List Byte := (refDrain s).2

/-- The source's loop with its guard (R131): Parse is called only while the buffer holds at least 5 bytes. -/
def guardedDrainFuel : Nat → List Byte → List RefEvent × List Byte
  | 0, b => ([], b)
  | fuel + 1, b =>
    if b.length < Config.headerLength then ([], b)
    else
      let r := parse b
      if r.consumed = 0 then ([], b)
      else
        let rest := guardedDrainFuel fuel (b.drop r.consumed)
        (r.events ++ rest.1, rest.2)

/-- The guarded loop's events and remainder (R131). -/
def guardedDrain (b : List Byte) : List RefEvent × List Byte := guardedDrainFuel b.length b

/-- `X(s)` of R170 from the remainder: the error the block has reported already on a lone trailing non-0xFF byte. -/
def earlyError (rem : List Byte) : List RefEvent :=
  match rem with
  | [x] => if x ≠ Config.startMarker then [.error .badStartMarker 1] else []
  | _ => []

/-- The frame record of a Frame event joined to its payload (R31, R174). -/
def joinedFrame (sh : Shape) (c q : Byte) (L : Half) (k : Byte) (payload : List Byte) : Frame :=
  frameRecord sh c q L payload k

/-- Joins a run's events (R170, R174), given the payload bytes streamed so far for the frame in progress; answers the payload
still pending and the joined list. A PayloadByte of index 0 begins a new payload; a Frame takes it, an Error voids it. -/
def joinEvents (pending : List Byte) : List Event → List Byte × List RefEvent
  | [] => (pending, [])
  | .payloadByte i b :: es => joinEvents (if i = 0 then [b] else pending ++ [b]) es
  | .frame sh c q L k :: es =>
    let rest := joinEvents [] es
    (rest.1, .frame (joinedFrame sh c q L k pending) :: rest.2)
  | .error kind n :: es =>
    let rest := joinEvents [] es
    (rest.1, .error kind n :: rest.2)

/-- `H(s)` of R170, from the block's event list. -/
def joinedEvents (es : List Event) : List RefEvent := (joinEvents [] es).2

/-- The payload bytes streamed for the frame still in progress. -/
def pendingPayload (es : List Event) : List Byte := (joinEvents [] es).1

/-- A frame's `payloadLength` field (R120). -/
def Frame.payloadLength : Frame → Nat
  | .answer _ _ L _ _ => L.toNat
  | .async _ L _ _ => L.toNat

/-- How many stream bytes a reference event accounts for (60_exceptions.md R206): what an error discards, a frame's `5 + L`. -/
def RefEvent.size : RefEvent → Nat
  | .error _ n => n
  | .frame f => Config.headerLength + f.payloadLength

/-- One turn of the drain loop (R129) with Parse's result: the consumed bytes leave the buffer, the result's event is appended. -/
def takeResult (r : ParseResult) (s : State) : State :=
  { s with
    ref := { buffer := s.ref.buffer.drop r.consumed, events := s.ref.events ++ r.events, last := r } }

/-- A call of Parse on a buffer too short to classify (R121): `(0, None, None)`. No row of the table is selected. -/
def waitForBytes (s : State) : State := takeResult .wait s

/-- REF_ANSWER (R124, R126): the Answer path on the buffer. -/
def execRefAnswer (s : State) : Host.Outcome State Fault Refusal :=
  .next (takeResult (parsePath .answer s.ref.buffer) s)

/-- REF_ASYNC (R125, R126): the Async path on the buffer. -/
def execRefAsync (s : State) : Host.Outcome State Fault Refusal :=
  .next (takeResult (parsePath .async s.ref.buffer) s)

/-- REF_UNKNOWN_SHAPE (R123): `(1, None, Some(UnknownShape))`; only the start marker is discarded. -/
def execRefUnknownShape (_b1 : Byte) (s : State) : Host.Outcome State Fault Refusal :=
  .next (takeResult unknownShapeResult s)

/-- REF_BAD_START (R122): `(1, None, Some(BadStartMarker))`; `buffer[1]` is not examined. -/
def execRefBadStart (_b0 _b1 : Byte) (s : State) : Host.Outcome State Fault Refusal :=
  .next (takeResult badStartResult s)

end Sys2Proof.Machine
end

