-- ==== Sys2Proof/Machine/Dispatch.lean ====
section
/-! DEFINITION. One arm per row of the table. -/

namespace Sys2Proof.Machine

def exec (i : Instr) (s : State) : Host.Outcome State Fault Refusal :=
  match i with
  | .idleSop => Sys2Proof.Machine.execIdleSop s
  | .idleBadStart b => Sys2Proof.Machine.execIdleBadStart b s
  | .shapeAnswer => Sys2Proof.Machine.execShapeAnswer s
  | .shapeAsync => Sys2Proof.Machine.execShapeAsync s
  | .shapeUnknown b => Sys2Proof.Machine.execShapeUnknown b s
  | .b2Code b => Sys2Proof.Machine.execB2Code b s
  | .b3SeqLenhi b => Sys2Proof.Machine.execB3SeqLenhi b s
  | .b4Len b => Sys2Proof.Machine.execB4Len b s
  | .payByte b => Sys2Proof.Machine.execPayByte b s
  | .chkByte b => Sys2Proof.Machine.execChkByte b s
  | .st7Reserved b => Sys2Proof.Machine.execSt7Reserved b s
  | .reset inValid => Sys2Proof.Machine.execReset inValid s
  | .idleCycle => Sys2Proof.Machine.execIdleCycle s
  | .accept => Sys2Proof.Machine.execAccept s
  | .refAnswer => Sys2Proof.Machine.execRefAnswer s
  | .refAsync => Sys2Proof.Machine.execRefAsync s
  | .refUnknownShape b1 => Sys2Proof.Machine.execRefUnknownShape b1 s
  | .refBadStart b0 b1 => Sys2Proof.Machine.execRefBadStart b0 b1 s

end Sys2Proof.Machine
end

