-- ==== Sys2Proof/Machine/Fetch.lean ====
section
/-! DEFINITION. What a step runs: the environment's next stimulus, the key it gives, and how a key of the table is placed so that the
next step runs it (log 1, log 8). -/

namespace Sys2Proof.Machine

/-- The next stimulus and the state without it; with none lined up, a free draw (log 2). -/
def takeStimulus (s : State) : Stimulus × State :=
  match s.stimuli with
  | x :: xs => (x, { s with stimuli := xs })
  | [] =>
    (if Config.freeParseCall s.draws then .parseCall
      else .edge ⟨Config.freeRst s.draws, Config.freeInValid s.draws, Config.freeInData s.draws⟩,
     { s with draws := s.draws + 1 })

/-- The row a stimulus selects, and the state it runs in: an edge puts its values on the input ports (10_state.md R21) and selects
by R150; a call of Parse selects by the buffer's first two bytes (30_encoding.md R77). -/
def selectRow (x : Stimulus) (s : State) : Except DecodeError Instr × State :=
  match x with
  | .edge p => (.ok (decodeKey (.ctl (ctlKey p.rst p.inValid))), { s with inp := p })
  | .parseCall => (decodeBuffer s.ref.buffer, s)

/-- What the next step runs, and in which state. -/
def fetch (s : State) : Except DecodeError Instr × State :=
  let x := takeStimulus s
  selectRow x.1 x.2

/-- An edge that presents a byte (20_memory.md R51). -/
def byteEdge (b : Byte) : Stimulus := .edge { rst := false, inValid := true, inData := b }

/-- An edge that presents nothing: `in_data` is any value (R151). -/
def idleEdge (d : Byte) : Stimulus := .edge { rst := false, inValid := false, inData := d }

/-- An edge with `rst = 1`: the other inputs are any values (R151). -/
def resetEdge (v : Bool) (d : Byte) : Stimulus := .edge { rst := true, inValid := v, inData := d }

/-- Lines up the stimulus whose step runs a key of the table: for `ctl` an edge with those two inputs and `in_data` 0; for
`st_byte` the state and an edge with the byte; for `prefix16` the buffer's first two bytes and a call of Parse (log 8). -/
def placeKey (k : Key) (s : State) : State :=
  match k with
  | .ctl k =>
    { s with stimuli := .edge { rst := k.getLsbD 1, inValid := k.getLsbD 0, inData := 0 } :: s.stimuli }
  | .stByte k =>
    { s with
      regs := { s.regs with st := St.ofBits (k.extractLsb' 8 3) }
      stimuli := byteEdge (k.extractLsb' 0 8) :: s.stimuli }
  | .prefix16 k =>
    { s with
      ref := { s.ref with buffer := k.extractLsb' 8 8 :: k.extractLsb' 0 8 :: s.ref.buffer.drop 2 }
      stimuli := .parseCall :: s.stimuli }

/-- Places the key of a number of the table; a number that has none changes nothing. -/
def placeWord (s : State) (nbits w : Nat) : State :=
  match keyOfWord nbits w with
  | .ok k => placeKey k s
  | .error _ => s

end Sys2Proof.Machine
end

