-- ==== Sys2Proof/Machine/Step.lean ====
section
/-! DEFINITION. One step: the environment's next stimulus selects a row, and the row runs. -/

namespace Sys2Proof.Machine

/-- A rising edge takes exactly one step (42_fsm_operations.md R150); a call of the reference's Parse on a buffer too short to
classify waits (R121). -/
def step (s : State) : Host.Outcome State Fault Refusal :=
  match fetch s with
  | (.ok i, s') => exec i s'
  | (.error _, s') => .next (waitForBytes s')

/-- `s` with the key that the number `w` of spec/opcode_table.json stands for placed so that the next step runs it. -/
def State.withFetchWord (s : State) (nbits w : Nat) : State := placeWord s nbits w

end Sys2Proof.Machine
end

