-- ==== Sys2Proof/Safety.lean ====
section
/-! DEFINITION. What a safe run is: the block's registers stand for the reference's remainder (42_fsm_operations.md R171), its
events are the reference's (R170), the reference's loop is somewhere on the same stream (41_reference_parser.md R130), and the
strobes are as the ports' table says (10_state.md R22). Also the words the statements use. -/

namespace Sys2Proof.Machine

/-- The shape a selector byte chooses (R171: `shape = (m == FE)`). -/
def markerShape (m : Byte) : Shape := if m = Config.asyncMarker then .async else .answer

/-- The bytes `s` summed mod 256, as `acc` holds them (R34, R103). -/
def sumMod256 (s : List Byte) : Byte := BitVec.ofNat 8 (byteSum s)

/-- R171's table: what the registers hold when the reference's remainder is `r`. The registers an earlier row of the table fixed
are carried on, since no rule rewrites them before the frame ends. -/
def Abstracts (r : List Byte) (g : Regs) : Prop :=
  match r with
  | [] => g.st = .idle
  | [x] => g.st = if x = Config.startMarker then .shape else .idle
  | [_, m] => g.st = .b2 ∧ g.shape = markerShape m
  | [_, m, c] => g.st = .b3 ∧ g.shape = markerShape m ∧ g.code = c ∧ g.acc = c
  | [_, m, c, d] =>
    g.st = .b4 ∧ g.shape = markerShape m ∧ g.code = c ∧ g.acc = addMod256 c d ∧
    (match markerShape m with
      | .answer => g.seq = d ∧ lengthHigh g.len = 0
      | .async => g.seq = 0 ∧ lengthHigh g.len = d)
  | _ :: m :: c :: d :: e :: payload =>
    g.shape = markerShape m ∧ g.code = c ∧
    (match markerShape m with
      | .answer => g.seq = d ∧ g.len.toNat = e.toNat
      | .async => g.seq = 0 ∧ g.len.toNat = d.toNat * 256 + e.toNat) ∧
    g.idx.toNat = payload.length ∧
    g.acc = sumMod256 (c :: d :: e :: payload) ∧
    payload.length + 1 ≤ g.len.toNat ∧
    g.st = if payload.length + 1 < g.len.toNat then .pay else .chk

/-- The invariant of every run: the block, its events and the reference agree about the stream accepted since the last reset. -/
structure Inv (s : State) : Prop where
  /-- R171: the registers stand for the remainder. -/
  position : Abstracts (refRem s.stream) s.regs
  /-- R170: the joined events are the reference's, and the early error on a lone bad byte. -/
  events : joinedEvents s.history = refEvents s.stream ++ earlyError (refRem s.stream)
  /-- R174: the payload bytes streamed and not yet committed or voided are those of the frame in progress. -/
  payload : pendingPayload s.history = (refRem s.stream).drop Config.headerLength
  /-- R130: what the reference has reported and what its buffer still gives is the stream's event list. -/
  drained : s.ref.events ++ refEvents s.ref.buffer = refEvents s.stream
  /-- R130: the buffer and the stream leave the same remainder. -/
  remainder : refRem s.ref.buffer = refRem s.stream

/-- R34's table, with the bytes of the current frame taken from the reference's remainder, and R24's row of the reserved state. -/
structure FrameInvariants (s : State) : Prop where
  b3 : s.regs.st = .b3 → s.regs.acc = s.regs.code
  b4 : s.regs.st = .b4 → s.regs.acc = sumMod256 (slice (refRem s.stream) 2 4)
  pay : s.regs.st = .pay → 2 ≤ s.regs.len.toNat ∧ s.regs.idx.toNat < s.regs.len.toNat - 1 ∧
    s.regs.acc = sumMod256 (slice (refRem s.stream) 2 (5 + s.regs.idx.toNat))
  chk : s.regs.st = .chk → 1 ≤ s.regs.len.toNat ∧ s.regs.idx.toNat = s.regs.len.toNat - 1 ∧
    s.regs.acc = sumMod256 (slice (refRem s.stream) 2 (4 + s.regs.len.toNat))
  answer : s.regs.shape = .answer → (s.regs.st = .pay ∨ s.regs.st = .chk) → s.regs.len.toNat ≤ 255
  notReserved : s.regs.st ≠ .reserved7

/-- The states of the runs from reset, whatever the environment has lined up. -/
inductive Reachable : State → Prop where
  | reset (xs : List Stimulus) : Reachable { State.reset with stimuli := xs }
  | step {s t : State} : Reachable s → Machine.step s = .next t → Reachable t

/-- The bytes that a sequence of stimuli makes the block accept since its last reset (20_memory.md R50, R51, R232): an edge with
`rst` = 1 begins anew, one with `rst` = 0 and `in_valid` = 1 adds its byte. -/
def acceptedSinceReset (xs : List Stimulus) : List Byte :=
  xs.foldl (fun bs x =>
    match x with
    | .edge p => if p.rst then [] else if p.inValid then bs ++ [p.inData] else bs
    | .parseCall => bs) []

/-- R22: when a strobe is 0, every data port of its group reads 0. -/
def QuietGroups (o : OutPorts) : Prop :=
  (o.plValid = false → o.plData = 0 ∧ o.plIndex = 0) ∧
  (o.frmValid = false → o.frmShape = 0 ∧ o.frmCode = 0 ∧ o.frmSeq = 0 ∧ o.frmLen = 0 ∧ o.frmChk = 0) ∧
  (o.errBadStart = false → o.errUnknownShape = false → o.errChecksum = false → o.errBadLength = false → o.errLen = 0)

/-- R173: `err_unknown_shape` comes with `err_bad_start`; no frame comes with an error, no payload byte with anything else, and no
other two errors together. -/
def ExclusiveStrobes (o : OutPorts) : Prop :=
  (o.errUnknownShape = true → o.errBadStart = true) ∧
  (o.frmValid = true → o.errBadStart = false ∧ o.errUnknownShape = false ∧ o.errChecksum = false ∧ o.errBadLength = false) ∧
  (o.plValid = true → o.frmValid = false ∧ o.errBadStart = false ∧ o.errUnknownShape = false ∧ o.errChecksum = false ∧
    o.errBadLength = false) ∧
  (o.errChecksum = true → o.errBadStart = false ∧ o.errUnknownShape = false ∧ o.errBadLength = false) ∧
  (o.errBadLength = true → o.errBadStart = false ∧ o.errUnknownShape = false)

/-- R26: the offset in the current frame of the next byte to be accepted. -/
def frameOffset (g : Regs) : Nat :=
  match g.st with
  | .idle => 0
  | .shape => 1
  | .b2 => 2
  | .b3 => 3
  | .b4 => 4
  | .pay => 5 + g.idx.toNat
  | .chk => 4 + g.len.toNat
  | .reserved7 => 0

/-- What no row of the table touches: the sampled inputs and the environment's queue. -/
def SameEnvironment (s t : State) : Prop :=
  t.inp = s.inp ∧ t.stimuli = s.stimuli ∧ t.draws = s.draws

/-- The block's registers, ports, stream and events are as before. -/
def SameBlock (s t : State) : Prop :=
  t.regs = s.regs ∧ t.out = s.out ∧ t.stream = s.stream ∧ t.history = s.history

/-- The byte `b` has been accepted with the events `es` and nothing else has happened outside the block's registers and ports. -/
def Accepted (b : Byte) (es : List Event) (s t : State) : Prop :=
  t.stream = s.stream ++ [b] ∧ t.history = s.history ++ es ∧
  t.ref.buffer = s.ref.buffer ++ [b] ∧ t.ref.events = s.ref.events ∧ t.ref.last = s.ref.last ∧
  SameEnvironment s t

/-- The drain loop has taken the result `r` with the events `es` and left the buffer `rest`; the block is as before. -/
def Drained (r : ParseResult) (es : List RefEvent) (rest : List Byte) (s t : State) : Prop :=
  t.ref.last = r ∧ t.ref.events = s.ref.events ++ es ∧ t.ref.buffer = rest ∧ SameBlock s t ∧ SameEnvironment s t

/-- The PayloadByte events of a payload, its first byte at index `i` (R174). -/
def payloadEvents (i : Nat) : List Byte → List Event
  | [] => []
  | b :: bs => .payloadByte (BitVec.ofNat 16 i) b :: payloadEvents (i + 1) bs

/-- The bytes of an Answer frame with payload `p` and checksum byte `k` (30_encoding.md R72, R74). -/
def answerBytes (code seq : Byte) (p : List Byte) (k : Byte) : List Byte :=
  0xFF :: 0xFF :: code :: seq :: BitVec.ofNat 8 (p.length + 1) :: (p ++ [k])

/-- The bytes of an Async frame with payload `p` and checksum byte `k` (R73, R74); the length is big-endian (20_memory.md R52). -/
def asyncBytes (id : Byte) (p : List Byte) (k : Byte) : List Byte :=
  0xFF :: 0xFE :: id :: BitVec.ofNat 8 ((p.length + 1) / 256) :: BitVec.ofNat 8 ((p.length + 1) % 256) :: (p ++ [k])

end Sys2Proof.Machine
end

