-- ==== Sys2Proof/Certificates/Slice0/Obligations.lean ====
section
/-! DEFINITION. The statements for the provers. Each docstring says which rule of spec/ it formalises; OBLIGATIONS.json lists them. -/

open Sys2Proof Sys2Proof.Machine

/-! ### Encoding -/

/-- Decoding the key of a well-formed row gives the row back, with every operand (30_encoding.md R77, R81; R150). -/
def Obligations.RowsDecodeAfterEncode : Prop :=
  ∀ i : Instr, i.wf = true → decodeKey (encode i) = i

/-- Every key of every format is the key of exactly the well-formed row it decodes to (R77, R81, R150). -/
def Obligations.EveryKeyIsOneRow : Prop :=
  ∀ k : Key, (decodeKey k).wf = true ∧ encode (decodeKey k) = k

/-- The decoder answers the row of the opcode table that covers the key with the lowest priority number: it covers the key, and any
other row that covers it stands below (R77 "by priority, first match wins"; R81). -/
def Obligations.DecoderFollowsTablePriority : Prop :=
  ∀ k : Key, (decodeKey k).tableRow.covers k = true ∧
    ∀ i : Instr, i.tableRow.covers k = true →
      i.tableRow = (decodeKey k).tableRow ∨ (decodeKey k).tableRow.priority < i.tableRow.priority

/-- Nineteen numbers of the opcode table: the keys of the vectors E1 to E11 (95_test_vectors.md 2.2), of the `ctl` rows (R150) and
of the `prefix16` rows (R77) decode to their rows, and two numbers are refused. Which row a key has is the spec's (R77, R81, R150).
That a two-byte number below 0x800 is read as an `st_byte` key and any other as a `prefix16` key, and that a number which fits no
format is refused, is the model's choice (log 7, DESIGN CHOICE), on which every clause rests. -/
def Obligations.KnownKeysDecode : Prop :=
  decodeTableWord 16 0x0FF = some .idleSop ∧ decodeTableWord 16 0x0FE = some (.idleBadStart 0xFE) ∧
  decodeTableWord 16 0x000 = some (.idleBadStart 0) ∧ decodeTableWord 16 0x1FF = some .shapeAnswer ∧
  decodeTableWord 16 0x1FE = some .shapeAsync ∧ decodeTableWord 16 0x1FD = some (.shapeUnknown 0xFD) ∧
  decodeTableWord 16 0x100 = some (.shapeUnknown 0) ∧ decodeTableWord 16 0x2FF = some (.b2Code 0xFF) ∧
  decodeTableWord 16 0x5FE = some (.payByte 0xFE) ∧ decodeTableWord 16 0x7FF = some (.st7Reserved 0xFF) ∧
  decodeTableWord 16 0x700 = some (.st7Reserved 0) ∧ decodeTableWord 8 0b11 = some (.reset true) ∧
  decodeTableWord 8 0b00 = some .idleCycle ∧ decodeTableWord 8 0b01 = some .accept ∧
  decodeTableWord 16 0xFFFF = some .refAnswer ∧ decodeTableWord 16 0xFF12 = some (.refUnknownShape 0x12) ∧
  decodeTableWord 16 0xFEFF = some (.refBadStart 0xFE 0xFF) ∧ decodeTableWord 8 0b100 = none ∧
  decodeTableWord 16 0x10000 = none

/-- `st`, `shape` and the error kinds are coded as R24, R25 and R32 say; the codes of `st` and `shape` are read back, and every code
stands for a state and a shape. -/
def Obligations.CodesOfTheTables : Prop :=
  (∀ v : BitVec 3, (St.ofBits v).bits = v) ∧ (∀ x : St, St.ofBits x.bits = x) ∧
  (∀ v : BitVec 1, (Shape.ofBit v).bit = v) ∧ (∀ x : Shape, Shape.ofBit x.bit = x) ∧
  (St.idle.bits = 0 ∧ St.shape.bits = 1 ∧ St.b2.bits = 2 ∧ St.b3.bits = 3 ∧ St.b4.bits = 4 ∧ St.pay.bits = 5 ∧ St.chk.bits = 6) ∧
  (Shape.answer.bit = 0 ∧ Shape.async.bit = 1) ∧
  (ErrorKind.badStartMarker.code = 1 ∧ ErrorKind.unknownShape.code = 2 ∧ ErrorKind.checksumMismatch.code = 3 ∧
    ErrorKind.badLength.code = 4)

/-! ### What a step runs -/

/-- A step runs the row its stimulus selects: an edge the `ctl` row of its inputs, with those values on the ports; a call of Parse
the `prefix16` row of the buffer's first two bytes, or the wait of R121. With nothing lined up the stimulus is a free draw (log 2). -/
def Obligations.StepRunsTheSelectedRow : Prop :=
  (∀ (s : State) (p : InPorts) (rest : List Stimulus), s.stimuli = .edge p :: rest →
    step s = exec (decodeKey (.ctl (ctlKey p.rst p.inValid))) { s with stimuli := rest, inp := p }) ∧
  (∀ (s : State) (rest : List Stimulus) (b0 b1 : Byte) (tail : List Byte),
    s.stimuli = .parseCall :: rest → s.ref.buffer = b0 :: b1 :: tail →
    step s = exec (decodeKey (.prefix16 (prefixKey b0 b1))) { s with stimuli := rest }) ∧
  (∀ (s : State) (rest : List Stimulus), s.stimuli = .parseCall :: rest → s.ref.buffer.length < 2 →
    step s = .next { s with stimuli := rest, ref := { s.ref with last := ⟨0, none, none⟩ } }) ∧
  (∀ s : State, s.stimuli = [] →
    step s = step { s with
      draws := s.draws + 1
      stimuli := [if Config.freeParseCall s.draws then .parseCall
        else .edge ⟨Config.freeRst s.draws, Config.freeInValid s.draws, Config.freeInData s.draws⟩] })

/-- R150: at an edge `rst` is tested first, then `in_valid`. -/
def Obligations.ResetIsTestedFirst : Prop :=
  ∀ (s : State) (p : InPorts) (rest : List Stimulus), s.stimuli = .edge p :: rest →
    (p.rst = true → step s = exec (.reset p.inValid) { s with stimuli := rest, inp := p }) ∧
    (p.rst = false → p.inValid = false → step s = exec .idleCycle { s with stimuli := rest, inp := p }) ∧
    (p.rst = false → p.inValid = true → step s = exec .accept { s with stimuli := rest, inp := p })

/-- The dispatch of R153 on `st` and the decode map of R81 on `st ++ in_data` select the same row. -/
def Obligations.AcceptFollowsTheDecodeMap : Prop :=
  ∀ s : State, exec .accept s = exec (decodeKey (.stByte (stByteKey s.regs.st.bits s.inp.inData))) s

/-- R211 and R244: no operation is refused in any mode and none stalls, so every step of every state gives a next state. -/
def Obligations.EveryStepCompletes : Prop :=
  ∀ s : State, ∃ t : State, step s = .next t

/-- R151: in a Reset step `in_valid` and `in_data`, and in an Idle step `in_data`, have no effect; only the record of the sampled
ports (`inp`) differs. -/
def Obligations.UnreadInputsHaveNoEffect : Prop :=
  (∀ (s : State) (v v' : Bool) (d d' : Byte), ∃ t : State,
    step { s with stimuli := resetEdge v d :: s.stimuli } = .next t ∧
    step { s with stimuli := resetEdge v' d' :: s.stimuli } = .next { t with inp := ⟨true, v', d'⟩ }) ∧
  (∀ (s : State) (d d' : Byte), ∃ t : State,
    step { s with stimuli := idleEdge d :: s.stimuli } = .next t ∧
    step { s with stimuli := idleEdge d' :: s.stimuli } = .next { t with inp := ⟨false, false, d'⟩ })

/-! ### Reset and Idle -/

/-- R230, R231: a Reset step puts every state register and every output register at its reset value from any state, and these are
the values of the machine right after reset. -/
def Obligations.ResetWritesEveryRegister : Prop :=
  ∀ (v : Bool) (s : State), ∃ t : State, exec (.reset v) s = .next t ∧
    t.regs = ⟨.idle, .answer, 0, 0, 0, 0, 0⟩ ∧
    t.out = ⟨false, 0, 0, false, 0, 0, 0, 0, 0, false, false, false, false, 0⟩ ∧
    SameEnvironment s t ∧ State.reset.regs = t.regs ∧ State.reset.out = t.out

/-- A Reset step begins a new run: the stream is counted anew (R50), no event of the old run remains and none is emitted (R233), and
the reference's buffer is empty (R230). That its event list and last result start anew too is the model's choice (log 16). -/
def Obligations.ResetBeginsANewRun : Prop :=
  ∀ (s : State) (v : Bool) (d : Byte) (rest : List Stimulus), s.stimuli = resetEdge v d :: rest →
    ∃ t : State, step s = .next t ∧ t.stream = [] ∧ t.history = [] ∧ observe t.out = [] ∧ t.ref = ⟨[], [], ⟨0, none, none⟩⟩ ∧
      t.stimuli = rest

/-- R230: `rst` held for several edges repeats the step: the state is that of its last edge alone. -/
def Obligations.HeldResetIsOneReset : Prop :=
  ∀ (s : State) (vs : List (Bool × Byte)) (v : Bool) (d : Byte) (rest : List Stimulus),
    Host.Core.run Sys2Proof.core (vs.length + 1)
        { s with stimuli := vs.map (fun x => resetEdge x.1 x.2) ++ resetEdge v d :: rest } =
      step { s with stimuli := resetEdge v d :: rest }

/-- R152: an Idle step keeps every state register, writes every output register 0, and emits no event. -/
def Obligations.IdleStepHoldsTheRegisters : Prop :=
  ∀ s : State, ∃ t : State, exec .idleCycle s = .next t ∧ t.regs = s.regs ∧
    t.out = ⟨false, 0, 0, false, 0, 0, 0, 0, 0, false, false, false, false, 0⟩ ∧
    t.stream = s.stream ∧ t.history = s.history ∧ t.ref = s.ref ∧ SameEnvironment s t

/-- R243: a frame in progress is held for any number of Idle steps. -/
def Obligations.FrameWaitsThroughIdleSteps : Prop :=
  ∀ (s : State) (ds : List Byte) (rest : List Stimulus), s.stimuli = ds.map idleEdge ++ rest →
    ∃ t : State, Host.Core.run Sys2Proof.core ds.length s = .next t ∧ t.regs = s.regs ∧ t.stream = s.stream ∧
      t.history = s.history ∧ t.ref = s.ref ∧ t.stimuli = rest ∧ (ds ≠ [] → observe t.out = [])

/-! ### The state rules -/

/-- R154: IDLE on the start marker moves to SHAPE with no event; on another byte it emits `Error(BadStartMarker, 1)` and stays. -/
def Obligations.IdleSearchesTheStartMarker : Prop :=
  (∀ s : State, ∃ t : State, exec .idleSop s = .next t ∧ t.regs = { s.regs with st := .shape } ∧
    t.out = OutPorts.zero ∧ Accepted 0xFF [] s t) ∧
  (∀ (b : Byte) (s : State), ∃ t : State, exec (.idleBadStart b) s = .next t ∧ t.regs = { s.regs with st := .idle } ∧
    t.out = { OutPorts.zero with errBadStart := true, errLen := 1 } ∧ Accepted b [.error .badStartMarker 1] s t)

/-- R155: SHAPE on a marker chooses the shape and moves to B2; on another byte it emits UnknownShape and then BadStartMarker, each
discarding one byte, and goes to IDLE. -/
def Obligations.ShapeIsSelected : Prop :=
  (∀ s : State, ∃ t : State, exec .shapeAnswer s = .next t ∧ t.regs = { s.regs with shape := .answer, st := .b2 } ∧
    t.out = OutPorts.zero ∧ Accepted 0xFF [] s t) ∧
  (∀ s : State, ∃ t : State, exec .shapeAsync s = .next t ∧ t.regs = { s.regs with shape := .async, st := .b2 } ∧
    t.out = OutPorts.zero ∧ Accepted 0xFE [] s t) ∧
  (∀ (b : Byte) (s : State), ∃ t : State, exec (.shapeUnknown b) s = .next t ∧ t.regs = { s.regs with st := .idle } ∧
    t.out = { OutPorts.zero with errUnknownShape := true, errBadStart := true, errLen := 1 } ∧
    Accepted b [.error .unknownShape 1, .error .badStartMarker 1] s t)

/-- R161: the reserved state does exactly what IDLE does. -/
def Obligations.ReservedStateActsAsIdle : Prop :=
  ∀ (b : Byte) (s : State), ∃ t : State, exec (.st7Reserved b) s = .next t ∧
    (b = 0xFF → exec .idleSop s = .next t ∧ t.regs.st = .shape) ∧
    (b ≠ 0xFF → exec (.idleBadStart b) s = .next t ∧ t.regs.st = .idle)

/-- R156: B2 writes `code`, overwrites `acc` and moves to B3. -/
def Obligations.CodeByteStartsTheSum : Prop :=
  ∀ (b : Byte) (s : State), ∃ t : State, exec (.b2Code b) s = .next t ∧
    t.regs = { s.regs with code := b, acc := b, st := .b3 } ∧ t.out = OutPorts.zero ∧ Accepted b [] s t

/-- R157: B3 writes `seq` (Answer) or `len[15:8]` (Async) from the byte and the other one with 0x00, adds the byte to `acc` mod 256,
and moves to B4; `len[7:0]` and every other register keep their values. -/
def Obligations.ThirdByteIsSequenceOrLengthHigh : Prop :=
  ∀ (b : Byte) (s : State), ∃ t : State, exec (.b3SeqLenhi b) s = .next t ∧
    (s.regs.shape = .answer → t.regs.seq = b ∧ t.regs.len.toNat = s.regs.len.toNat % 256) ∧
    (s.regs.shape = .async → t.regs.seq = 0 ∧ t.regs.len.toNat = b.toNat * 256 + s.regs.len.toNat % 256) ∧
    t.regs.acc.toNat = (s.regs.acc.toNat + b.toNat) % 256 ∧ t.regs.st = .b4 ∧
    t.regs.shape = s.regs.shape ∧ t.regs.code = s.regs.code ∧ t.regs.idx = s.regs.idx ∧
    t.out = OutPorts.zero ∧ Accepted b [] s t

/-- R158: B4 assembles `len` (R75), adds the byte to `acc`, clears `idx`; length 0 is `Error(BadLength, 5)` and IDLE, length 1 goes
to CHK, every other one to PAY. -/
def Obligations.FourthByteCompletesTheLength : Prop :=
  ∀ (b : Byte) (s : State), ∃ t : State, exec (.b4Len b) s = .next t ∧
    (s.regs.shape = .answer → t.regs.len.toNat = b.toNat) ∧
    (s.regs.shape = .async → t.regs.len.toNat = s.regs.len.toNat / 256 * 256 + b.toNat) ∧
    t.regs.acc.toNat = (s.regs.acc.toNat + b.toNat) % 256 ∧ t.regs.idx = 0 ∧
    t.regs.shape = s.regs.shape ∧ t.regs.code = s.regs.code ∧ t.regs.seq = s.regs.seq ∧
    (t.regs.len = 0 → t.regs.st = .idle ∧ t.out = { OutPorts.zero with errBadLength := true, errLen := 5 } ∧
      Accepted b [.error .badLength 5] s t) ∧
    (t.regs.len.toNat = 1 → t.regs.st = .chk ∧ t.out = OutPorts.zero ∧ Accepted b [] s t) ∧
    (2 ≤ t.regs.len.toNat → t.regs.st = .pay ∧ t.out = OutPorts.zero ∧ Accepted b [] s t)

/-- R159: PAY emits `PayloadByte(idx, b)` with the pre-edge index, adds the byte to `acc`, advances `idx`, and moves to CHK exactly
after the last payload byte. Two clauses are the model's choice (log 6, DEDUCED from R8 and R159), in states that R34 says no run
reaches: at `idx` = 65535 the new `idx` is 0, stored in 16 bits, and at `len` 0 or 1 the test, in exact integers, is false. -/
def Obligations.PayloadByteIsStreamed : Prop :=
  ∀ (b : Byte) (s : State), ∃ t : State, exec (.payByte b) s = .next t ∧
    t.regs.acc.toNat = (s.regs.acc.toNat + b.toNat) % 256 ∧ t.regs.idx.toNat = (s.regs.idx.toNat + 1) % 65536 ∧
    (s.regs.idx.toNat + 2 = s.regs.len.toNat → t.regs.st = .chk) ∧
    (s.regs.idx.toNat + 2 ≠ s.regs.len.toNat → t.regs.st = .pay) ∧
    t.regs.shape = s.regs.shape ∧ t.regs.code = s.regs.code ∧ t.regs.seq = s.regs.seq ∧ t.regs.len = s.regs.len ∧
    t.out = { OutPorts.zero with plValid := true, plData := b, plIndex := s.regs.idx } ∧
    Accepted b [.payloadByte s.regs.idx b] s t

/-- R160: CHK commits the frame when the byte is `acc ⊕ 0xFF`, reporting its header fields and checksum, and else discards its
`5 + len` bytes with ChecksumMismatch, in 17 bits; it goes to IDLE, and no other register changes. -/
def Obligations.ChecksumByteCommitsOrAborts : Prop :=
  ∀ (b : Byte) (s : State), ∃ t : State, exec (.chkByte b) s = .next t ∧ t.regs = { s.regs with st := .idle } ∧
    (b = s.regs.acc ^^^ 0xFF →
      t.out = { OutPorts.zero with
        frmValid := true, frmShape := s.regs.shape.bit, frmCode := s.regs.code, frmSeq := s.regs.seq,
        frmLen := s.regs.len, frmChk := b } ∧
      Accepted b [.frame s.regs.shape s.regs.code s.regs.seq s.regs.len b] s t) ∧
    (b ≠ s.regs.acc ^^^ 0xFF →
      (∃ n : ErrLen, n.toNat = 5 + s.regs.len.toNat ∧
        t.out = { OutPorts.zero with errChecksum := true, errLen := n }) ∧
      Accepted b [.error .checksumMismatch (5 + s.regs.len.toNat)] s t)

/-- R51, R153: an Accept step takes the byte on `in_data` exactly once, in any state, and the events it emits are those its output
ports show (R31, R172). -/
def Obligations.AcceptTakesTheByteOnce : Prop :=
  ∀ s : State, ∃ t : State, exec .accept s = .next t ∧ Accepted s.inp.inData (observe t.out) s t

/-! ### Events and ports -/

/-- R173: an Accept step emits one of the six event lists, each in the states it belongs to. -/
def Obligations.EventsOfOneAcceptStep : Prop :=
  ∀ s t : State, exec .accept s = .next t → ∃ es : List Event, t.history = s.history ++ es ∧ t.out = ports es ∧
    ((es = [] ∧ s.regs.st ≠ .pay ∧ s.regs.st ≠ .chk) ∨
     (s.regs.st = .pay ∧ ∃ i b, es = [.payloadByte i b]) ∨
     (s.regs.st = .chk ∧ ((∃ sh c q L k, es = [.frame sh c q L k]) ∨ ∃ n, es = [.error .checksumMismatch n])) ∨
     ((s.regs.st = .idle ∨ s.regs.st = .reserved7) ∧ es = [.error .badStartMarker 1]) ∨
     (s.regs.st = .b4 ∧ es = [.error .badLength 5]) ∨
     (s.regs.st = .shape ∧ es = [.error .unknownShape 1, .error .badStartMarker 1]))

/-- R22, R173: after every edge, the data ports of a group whose strobe is 0 read 0, and the strobes exclude one another as R173
says. -/
def Obligations.PortsAfterAnEdge : Prop :=
  ∀ (s t : State) (p : InPorts) (rest : List Stimulus), s.stimuli = .edge p :: rest → step s = .next t →
    QuietGroups t.out ∧ ExclusiveStrobes t.out

/-- R207: every step that reports an error leaves the block in IDLE. -/
def Obligations.ErrorsLeaveIdle : Prop :=
  ∀ (s t : State) (p : InPorts) (rest : List Stimulus) (k : ErrorKind) (n : Nat),
    s.stimuli = .edge p :: rest → step s = .next t → .error k n ∈ observe t.out → t.regs.st = .idle

/-- R26: each accepted byte advances the offset in the frame by one, or ends a frame or a resync in IDLE, where it is 0; it never
wraps. The premise is the invariant of FrameInvariantsOnEveryRun. -/
def Obligations.OffsetAdvancesByOneOrReturns : Prop :=
  ∀ s t : State, FrameInvariants s → exec .accept s = .next t →
    frameOffset t.regs = frameOffset s.regs + 1 ∨ (t.regs.st = .idle ∧ frameOffset t.regs = 0)

/-- R174, R175: from the state after a header of length `L`, the next `L - 1` accepted bytes are the payload, in index order and
whatever their values, and the one after them is the checksum byte; a commit needs the covered sum and that byte to add to 0xFF
mod 256 (R105). -/
def Obligations.BodyRunsToItsChecksum : Prop :=
  ∀ (s : State) (p : List Byte) (c : Byte) (rest : List Stimulus),
    s.regs.st = (if p = [] then .chk else .pay) → s.regs.idx = 0 → s.regs.len.toNat = p.length + 1 →
    s.stimuli = (p ++ [c]).map byteEdge ++ rest →
    ∃ t : State, Host.Core.run Sys2Proof.core (p.length + 1) s = .next t ∧ t.regs.st = .idle ∧ t.stimuli = rest ∧
      t.stream = s.stream ++ (p ++ [c]) ∧
      t.history = s.history ++ payloadEvents 0 p ++
        [if (s.regs.acc.toNat + byteSum p + c.toNat) % 256 = 255
          then .frame s.regs.shape s.regs.code s.regs.seq s.regs.len c
          else .error .checksumMismatch (5 + s.regs.len.toNat)]

/-- The source's round trip (95_test_vectors.md 1.2 item 1, 90_conflicts.md C2, C3), for both shapes and from any state in IDLE: a
frame's bytes give its payload events and then the Frame event if the checksum byte is right, and else one ChecksumMismatch over
the whole frame. -/
def Obligations.FramesAreReportedFromIdle : Prop :=
  (∀ (s : State) (c q k : Byte) (p : List Byte) (rest : List Stimulus), s.regs.st = .idle → p.length ≤ 254 →
    s.stimuli = (answerBytes c q p k).map byteEdge ++ rest →
    ∃ t : State, Host.Core.run Sys2Proof.core (6 + p.length) s = .next t ∧ t.regs.st = .idle ∧ t.stimuli = rest ∧
      t.history = s.history ++ payloadEvents 0 p ++
        [if k = checksum (c :: q :: BitVec.ofNat 8 (p.length + 1) :: p)
          then .frame .answer c q (BitVec.ofNat 16 (p.length + 1)) k
          else .error .checksumMismatch (6 + p.length)]) ∧
  (∀ (s : State) (c k : Byte) (p : List Byte) (rest : List Stimulus), s.regs.st = .idle → p.length ≤ 65534 →
    s.stimuli = (asyncBytes c p k).map byteEdge ++ rest →
    ∃ t : State, Host.Core.run Sys2Proof.core (6 + p.length) s = .next t ∧ t.regs.st = .idle ∧ t.stimuli = rest ∧
      t.history = s.history ++ payloadEvents 0 p ++
        [if k = checksum (c :: BitVec.ofNat 8 ((p.length + 1) / 256) :: BitVec.ofNat 8 ((p.length + 1) % 256) :: p)
          then .frame .async c 0 (BitVec.ofNat 16 (p.length + 1)) k
          else .error .checksumMismatch (6 + p.length)])

/-! ### The checksum -/

/-- R101: the equivalent forms of the checksum. -/
def Obligations.ChecksumForms : Prop :=
  ∀ s : List Byte, checksum s = BitVec.ofNat 8 (byteSum s % 256) ^^^ 0xFF ∧
    (checksum s).toNat = 0xFF - byteSum s % 256 ∧ (checksum s).toNat = (0xFF - byteSum s % 256) % 256 ∧
    checksum s = ~~~ BitVec.ofNat 8 (byteSum s % 256)

/-- R102: the checksum depends on the multiset of bytes only. -/
def Obligations.ChecksumIgnoresOrder : Prop :=
  ∀ s t : List Byte, s.Perm t → checksum s = checksum t

/-- R103: the running sum is the sum mod 256, one byte at a time. -/
def Obligations.RunningSumIsTheSum : Prop :=
  ∀ (s : List Byte) (b : Byte), byteSum (s ++ [b]) % 256 = (addMod256 (BitVec.ofNat 8 (byteSum s % 256)) b).toNat

/-- R105: the validator's test holds exactly when `acc +₈ c == 0xFF`, and a covered range is valid exactly when it sums with its
checksum byte to 0xFF mod 256; on the covered sum the state machine's test is the reference's (R104). -/
def Obligations.ValidityForms : Prop :=
  (∀ acc c : Byte, accValid acc c = true ↔ addMod256 acc c = 0xFF) ∧
  (∀ (covered : List Byte) (c : Byte), checksumValid covered c = true ↔ byteSum (covered ++ [c]) % 256 = 0xFF) ∧
  (∀ (covered : List Byte) (c : Byte), accValid (BitVec.ofNat 8 (byteSum covered % 256)) c = checksumValid covered c)

/-- R106 items 1 and 2: a change of exactly one byte, covered or the checksum byte itself, makes a valid range fail the test, and
changes whose differences sum to 0 mod 256 do not. -/
def Obligations.WhatTheChecksumDetects : Prop :=
  (∀ (u v : List Byte) (x y c d : Byte), checksumValid (u ++ x :: v) c = true →
    (x ≠ y → checksumValid (u ++ y :: v) c = false) ∧ (c ≠ d → checksumValid (u ++ x :: v) d = false)) ∧
  (∀ (u v : List Byte) (c : Byte), byteSum u % 256 = byteSum v % 256 → checksumValid u c = checksumValid v c)

/-! ### The reference -/

/-- R122, R123: a bad start marker and an unknown shape discard exactly one byte of the buffer, whatever follows; the block is not
touched. -/
def Obligations.MarkerErrorsDiscardOneByte : Prop :=
  (∀ (b0 b1 : Byte) (s : State), ∃ t : State, exec (.refBadStart b0 b1) s = .next t ∧
    Drained ⟨1, none, some .badStartMarker⟩ [.error .badStartMarker 1] (s.ref.buffer.drop 1) s t) ∧
  (∀ (b1 : Byte) (s : State), ∃ t : State, exec (.refUnknownShape b1) s = .next t ∧
    Drained ⟨1, none, some .unknownShape⟩ [.error .unknownShape 1] (s.ref.buffer.drop 1) s t)

/-- R124, R126: the Answer path on a buffer that begins with the answer prefix: it waits for the header and for the whole frame,
reports BadLength on length 0, and else takes the whole frame, as an AnswerFrame or as a ChecksumMismatch. -/
def Obligations.AnswerPathOfTheReference : Prop :=
  ∀ s : State,
    (s.ref.buffer.length < 5 → ∃ t, exec .refAnswer s = .next t ∧ Drained ⟨0, none, none⟩ [] s.ref.buffer s t) ∧
    (∀ (m0 m1 c q e : Byte) (rest : List Byte), s.ref.buffer = m0 :: m1 :: c :: q :: e :: rest →
      (e = 0 → ∃ t, exec .refAnswer s = .next t ∧ Drained ⟨5, none, some .badLength⟩ [.error .badLength 5] rest s t) ∧
      (rest.length < e.toNat → ∃ t, exec .refAnswer s = .next t ∧ Drained ⟨0, none, none⟩ [] s.ref.buffer s t) ∧
      (∀ (p : List Byte) (k : Byte) (tail : List Byte), rest = p ++ k :: tail → e.toNat = p.length + 1 →
        ∃ t, exec .refAnswer s = .next t ∧
          (k = checksum (c :: q :: e :: p) →
            Drained ⟨5 + e.toNat, some (.answer c q (BitVec.ofNat 16 e.toNat) p k), none⟩
              [.frame (.answer c q (BitVec.ofNat 16 e.toNat) p k)] tail s t) ∧
          (k ≠ checksum (c :: q :: e :: p) →
            Drained ⟨5 + e.toNat, none, some .checksumMismatch⟩ [.error .checksumMismatch (5 + e.toNat)] tail s t)))

/-- R125, R126: the Async path, the same with the 16-bit big-endian length of bytes 3 and 4. -/
def Obligations.AsyncPathOfTheReference : Prop :=
  ∀ s : State,
    (s.ref.buffer.length < 5 → ∃ t, exec .refAsync s = .next t ∧ Drained ⟨0, none, none⟩ [] s.ref.buffer s t) ∧
    (∀ (m0 m1 c d e : Byte) (rest : List Byte) (n : Nat),
      s.ref.buffer = m0 :: m1 :: c :: d :: e :: rest → n = d.toNat * 256 + e.toNat →
      (n = 0 → ∃ t, exec .refAsync s = .next t ∧ Drained ⟨5, none, some .badLength⟩ [.error .badLength 5] rest s t) ∧
      (rest.length < n → ∃ t, exec .refAsync s = .next t ∧ Drained ⟨0, none, none⟩ [] s.ref.buffer s t) ∧
      (∀ (p : List Byte) (k : Byte) (tail : List Byte), rest = p ++ k :: tail → n = p.length + 1 →
        ∃ t, exec .refAsync s = .next t ∧
          (k = checksum (c :: d :: e :: p) →
            Drained ⟨5 + n, some (.async c (BitVec.ofNat 16 n) p k), none⟩
              [.frame (.async c (BitVec.ofNat 16 n) p k)] tail s t) ∧
          (k ≠ checksum (c :: d :: e :: p) →
            Drained ⟨5 + n, none, some .checksumMismatch⟩ [.error .checksumMismatch (5 + n)] tail s t)))

/-- The four `prefix16` rows together are Parse (R120 to R126) and one turn of the drain loop (R129); on a buffer they have no key
for, Parse waits (R121). -/
def Obligations.PrefixRowsAreParse : Prop :=
  (∀ b : List Byte, b.length < 2 → parse b = ⟨0, none, none⟩) ∧
  ∀ (s : State) (b0 b1 : Byte) (tail : List Byte), s.ref.buffer = b0 :: b1 :: tail →
    ∃ t : State, exec (decodeKey (.prefix16 (prefixKey b0 b1))) s = .next t ∧
      Drained (parse s.ref.buffer) (parse s.ref.buffer).events (s.ref.buffer.drop (parse s.ref.buffer).consumed) s t

/-- R127: Parse returns a wait, an error that discards at least one byte, or a frame of `5 + payloadLength` bytes; never more than
the buffer holds, nor than 65540. -/
def Obligations.ParseResultForms : Prop :=
  ∀ b : List Byte,
    (parse b = ⟨0, none, none⟩ ∨ (∃ c k, 1 ≤ c ∧ parse b = ⟨c, none, some k⟩) ∨
      ∃ f : Frame, parse b = ⟨5 + f.payloadLength, some f, none⟩) ∧
    (parse b).consumed ≤ b.length ∧ (parse b).consumed ≤ 65540

/-- R128's first two sentences: a result with a nonzero count stays the same whatever bytes are appended to the buffer, and a buffer
on which Parse waits is a proper prefix of one on which it gives a nonzero count. -/
def Obligations.ParseIsPrefixStable : Prop :=
  (∀ b t : List Byte, 1 ≤ (parse b).consumed → parse (b ++ t) = parse b) ∧
  (∀ b : List Byte, parse b = ⟨0, none, none⟩ → ∃ t : List Byte, t ≠ [] ∧ 1 ≤ (parse (b ++ t)).consumed)

/-- R130: draining a stream in two chunks gives the events and the remainder of draining it whole. -/
def Obligations.DrainIsIndependentOfChunks : Prop :=
  ∀ a b : List Byte,
    refEvents (a ++ b) = refEvents a ++ refEvents (refRem a ++ b) ∧ refRem (a ++ b) = refRem (refRem a ++ b)

/-- R131: the guarded loop's events are a prefix of the reference's, and the two differ only while fewer than 5 bytes remain. -/
def Obligations.GuardedLoopReportsAPrefix : Prop :=
  ∀ s : List Byte, (guardedDrain s).1 <+: refEvents s ∧ (5 ≤ (guardedDrain s).2.length → guardedDrain s = refDrain s)

/-- R132: the forms of the remainder. -/
def Obligations.RemainderForms : Prop :=
  ∀ s : List Byte, refRem s = [] ∨ (∃ x, refRem s = [x]) ∨
    ∃ (m : Byte) (r t : List Byte), refRem s = 0xFF :: m :: r ∧ (m = 0xFF ∨ m = 0xFE) ∧ t ≠ [] ∧
      1 ≤ (parse (refRem s ++ t)).consumed

/-- R133: a proper prefix of a frame waits and never errs, while a bad start or an unknown shape is an error at once; a bad start
consumes one byte and the drain goes on with the rest; a well-formed Answer frame with exactly one payload byte changed gives
ChecksumMismatch over the full frame length. -/
def Obligations.ParserPropertiesOfTheSource : Prop :=
  (∀ (m c d e : Byte) (body b : List Byte), (m = 0xFF ∨ m = 0xFE) →
    body.length = (if m = 0xFF then e.toNat else d.toNat * 256 + e.toNat) → body ≠ [] →
    b <+: (0xFF :: m :: c :: d :: e :: body) → b.length < 5 + body.length → parse b = ⟨0, none, none⟩) ∧
  (∀ (x y : Byte) (tail : List Byte), x ≠ 0xFF →
    parse (x :: y :: tail) = ⟨1, none, some .badStartMarker⟩ ∧
    refDrain (x :: y :: tail) = (.error .badStartMarker 1 :: refEvents (y :: tail), refRem (y :: tail))) ∧
  (∀ (y : Byte) (tail : List Byte), y ≠ 0xFF → y ≠ 0xFE →
    parse (0xFF :: y :: tail) = ⟨1, none, some .unknownShape⟩) ∧
  (∀ (c q x y : Byte) (u v : List Byte), u.length + v.length ≤ 253 → x ≠ y →
    parse (answerBytes c q (u ++ y :: v) (checksum (c :: q :: BitVec.ofNat 8 (u.length + v.length + 2) :: (u ++ x :: v)))) =
      ⟨7 + u.length + v.length, none, some .checksumMismatch⟩)

/-! ### The block and the reference -/

/-- The invariant holds right after reset, whatever the environment has lined up. -/
def Obligations.AgreementHoldsAtReset : Prop :=
  ∀ xs : List Stimulus, Inv { State.reset with stimuli := xs }

/-- R170, R171, R130: every step of every state that meets the invariant gives a state that meets it: the registers stand for the
reference's remainder, the joined events are the reference's, and the reference's own loop may run at any time. -/
def Obligations.EveryStepKeepsTheAgreement : Prop :=
  ∀ s t : State, Inv s → step s = .next t → Inv t

/-- R34: the invariants of the frame registers hold after every step that began from reset, and no such step reaches the reserved
state (R24). -/
def Obligations.FrameInvariantsOnEveryRun : Prop :=
  ∀ s : State, Reachable s → FrameInvariants s

/-- R170: after the stream `bs` from reset, the block's joined events are the reference's, and the one early error. -/
def Obligations.BlockReportsWhatTheReferenceReports : Prop :=
  ∀ (bs : List Byte) (rest : List Stimulus),
    ∃ t : State, Host.Core.run Sys2Proof.core bs.length { State.reset with stimuli := bs.map byteEdge ++ rest } = .next t ∧
      t.stream = bs ∧ t.stimuli = rest ∧ joinedEvents t.history = refEvents bs ++ earlyError (refRem bs) ∧
      ∀ u : List Byte, u ≠ [] → joinedEvents t.history <+: refEvents (bs ++ u)

/-- R170 on every run from reset, with Idle edges, Reset edges and calls of Parse anywhere in it: the stream is the bytes accepted
since the last reset (R50), and the joined events are the reference's on it, with the one early error. -/
def Obligations.AnyRunReportsWhatTheReferenceReports : Prop :=
  ∀ (xs rest : List Stimulus),
    ∃ t : State, Host.Core.run Sys2Proof.core xs.length { State.reset with stimuli := xs ++ rest } = .next t ∧
      t.stimuli = rest ∧ t.stream = acceptedSinceReset xs ∧
      joinedEvents t.history = refEvents (acceptedSinceReset xs) ++ earlyError (refRem (acceptedSinceReset xs))

/-- R34, from the agreement itself (R171): every state that meets Inv, reached or not, meets R34's table, and its `st` is not the
reserved code. With EveryStepKeepsTheAgreement every step keeps R34's table. -/
def Obligations.AgreementGivesFrameInvariants : Prop :=
  ∀ s : State, Inv s → FrameInvariants s

/-- R206: the bytes that errors discard and the bytes of committed frames partition the accepted stream, but for those of the frame
in progress, as many as its offset (R26). -/
def Obligations.ReportedBytesPartitionTheStream : Prop :=
  ∀ s : State, Inv s →
    ((joinedEvents s.history).map RefEvent.size).sum + frameOffset s.regs = s.stream.length

/-- R20: no agent but the block writes the block's state: a call of the reference's Parse leaves its registers, ports, stream and
events as they are. -/
def Obligations.ParseCallsLeaveTheBlock : Prop :=
  ∀ (s : State) (rest : List Stimulus), s.stimuli = .parseCall :: rest →
    ∃ t : State, step s = .next t ∧ SameBlock s t ∧ t.inp = s.inp ∧ t.stimuli = rest ∧ t.draws = s.draws
end

