-- ==== Sys2Proof/Laws/Decode.lean ====
section
/-! SUPPORT. The key fields read back, and the decoder on a key built from its fields. -/

namespace Sys2Proof

theorem stByteKey_toNat (st : BitVec 3) (b : Byte) : (stByteKey st b).toNat = st.toNat * 256 + b.toNat := by
  change (st ++ b).toNat = _
  rw [BitVec.toNat_append, ← Nat.shiftLeft_add_eq_or_of_lt b.isLt, Nat.shiftLeft_eq]

theorem prefixKey_toNat (b0 b1 : Byte) : (prefixKey b0 b1).toNat = b0.toNat * 256 + b1.toNat := by
  change (b0 ++ b1).toNat = _
  rw [BitVec.toNat_append, ← Nat.shiftLeft_add_eq_or_of_lt b1.isLt, Nat.shiftLeft_eq]

@[simp] theorem stByteKey_byte (st : BitVec 3) (b : Byte) : (stByteKey st b).extractLsb' 0 8 = b := by
  apply BitVec.eq_of_toNat_eq
  have := b.isLt
  rw [BitVec.extractLsb'_toNat, stByteKey_toNat, Nat.shiftRight_zero]
  omega

@[simp] theorem stByteKey_state (st : BitVec 3) (b : Byte) : (stByteKey st b).extractLsb' 8 3 = st := by
  apply BitVec.eq_of_toNat_eq
  have := b.isLt
  have := st.isLt
  rw [BitVec.extractLsb'_toNat, stByteKey_toNat, Nat.shiftRight_eq_div_pow]
  omega

@[simp] theorem prefixKey_first (b0 b1 : Byte) : (prefixKey b0 b1).extractLsb' 8 8 = b0 := by
  apply BitVec.eq_of_toNat_eq
  have := b0.isLt
  have := b1.isLt
  rw [BitVec.extractLsb'_toNat, prefixKey_toNat, Nat.shiftRight_eq_div_pow]
  omega

@[simp] theorem prefixKey_second (b0 b1 : Byte) : (prefixKey b0 b1).extractLsb' 0 8 = b1 := by
  apply BitVec.eq_of_toNat_eq
  have := b1.isLt
  rw [BitVec.extractLsb'_toNat, prefixKey_toNat, Nat.shiftRight_zero]
  omega

/-- The prefix decode of R77 on two bytes. -/
theorem decodePrefix_key (b0 b1 : Byte) :
    decodePrefix (prefixKey b0 b1) =
      if b0 = Config.startMarker then
        if b1 = Config.answerMarker then .refAnswer
        else if b1 = Config.asyncMarker then .refAsync
        else .refUnknownShape b1
      else .refBadStart b0 b1 := by
  simp [decodePrefix]

@[simp] theorem decodeCtl_reset (v : Bool) : decodeCtl (ctlKey true v) = .reset v := by
  cases v <;> rfl

@[simp] theorem decodeCtl_idle : decodeCtl (ctlKey false false) = .idleCycle := rfl

@[simp] theorem decodeCtl_accept : decodeCtl (ctlKey false true) = .accept := rfl

end Sys2Proof
end

