-- ==== Sys2Proof/Laws/State.lean ====
section
/-! SUPPORT. Every shared update of the state, field by field. -/

namespace Sys2Proof.Machine

/-! ### Accepting a byte (42_fsm_operations.md R153) -/

@[simp] theorem acceptByte_regs (b : Byte) (g : Regs) (es : List Event) (s : State) : (acceptByte b g es s).regs = g := rfl
@[simp] theorem acceptByte_out (b : Byte) (g : Regs) (es : List Event) (s : State) : (acceptByte b g es s).out = ports es := rfl
@[simp] theorem acceptByte_inp (b : Byte) (g : Regs) (es : List Event) (s : State) : (acceptByte b g es s).inp = s.inp := rfl
@[simp] theorem acceptByte_stream (b : Byte) (g : Regs) (es : List Event) (s : State) : (acceptByte b g es s).stream = s.stream ++ [b] := rfl
@[simp] theorem acceptByte_history (b : Byte) (g : Regs) (es : List Event) (s : State) : (acceptByte b g es s).history = s.history ++ es := rfl
@[simp] theorem acceptByte_ref (b : Byte) (g : Regs) (es : List Event) (s : State) : (acceptByte b g es s).ref = { s.ref with buffer := s.ref.buffer ++ [b] } := rfl
@[simp] theorem acceptByte_stimuli (b : Byte) (g : Regs) (es : List Event) (s : State) : (acceptByte b g es s).stimuli = s.stimuli := rfl
@[simp] theorem acceptByte_draws (b : Byte) (g : Regs) (es : List Event) (s : State) : (acceptByte b g es s).draws = s.draws := rfl

/-! ### Reporting framing errors (60_exceptions.md R200, R207) -/

@[simp] theorem reportErrors_regs (b : Byte) (g : Regs) (es : List (ErrorKind × Nat)) (s : State) : (reportErrors b g es s).regs = { g with st := .idle } := rfl
@[simp] theorem reportErrors_out (b : Byte) (g : Regs) (es : List (ErrorKind × Nat)) (s : State) : (reportErrors b g es s).out = ports (es.map fun e => .error e.1 e.2) := rfl
@[simp] theorem reportErrors_inp (b : Byte) (g : Regs) (es : List (ErrorKind × Nat)) (s : State) : (reportErrors b g es s).inp = s.inp := rfl
@[simp] theorem reportErrors_stream (b : Byte) (g : Regs) (es : List (ErrorKind × Nat)) (s : State) : (reportErrors b g es s).stream = s.stream ++ [b] := rfl
@[simp] theorem reportErrors_history (b : Byte) (g : Regs) (es : List (ErrorKind × Nat)) (s : State) : (reportErrors b g es s).history = s.history ++ es.map fun e => .error e.1 e.2 := rfl
@[simp] theorem reportErrors_ref (b : Byte) (g : Regs) (es : List (ErrorKind × Nat)) (s : State) : (reportErrors b g es s).ref = { s.ref with buffer := s.ref.buffer ++ [b] } := rfl
@[simp] theorem reportErrors_stimuli (b : Byte) (g : Regs) (es : List (ErrorKind × Nat)) (s : State) : (reportErrors b g es s).stimuli = s.stimuli := rfl
@[simp] theorem reportErrors_draws (b : Byte) (g : Regs) (es : List (ErrorKind × Nat)) (s : State) : (reportErrors b g es s).draws = s.draws := rfl

/-! ### Entering a frame (R155) -/

@[simp] theorem enterFrame_regs (b : Byte) (sh : Shape) (s : State) : (enterFrame b sh s).regs = { s.regs with shape := sh, st := .b2 } := rfl
@[simp] theorem enterFrame_out (b : Byte) (sh : Shape) (s : State) : (enterFrame b sh s).out = OutPorts.zero := rfl
@[simp] theorem enterFrame_inp (b : Byte) (sh : Shape) (s : State) : (enterFrame b sh s).inp = s.inp := rfl
@[simp] theorem enterFrame_stream (b : Byte) (sh : Shape) (s : State) : (enterFrame b sh s).stream = s.stream ++ [b] := rfl
@[simp] theorem enterFrame_history (b : Byte) (sh : Shape) (s : State) : (enterFrame b sh s).history = s.history ++ [] := rfl
@[simp] theorem enterFrame_ref (b : Byte) (sh : Shape) (s : State) : (enterFrame b sh s).ref = { s.ref with buffer := s.ref.buffer ++ [b] } := rfl
@[simp] theorem enterFrame_stimuli (b : Byte) (sh : Shape) (s : State) : (enterFrame b sh s).stimuli = s.stimuli := rfl
@[simp] theorem enterFrame_draws (b : Byte) (sh : Shape) (s : State) : (enterFrame b sh s).draws = s.draws := rfl

/-! ### Reset (70_reset_and_hazards.md R230) and Idle (R152) -/

@[simp] theorem resetBlock_regs (s : State) : (resetBlock s).regs = Regs.reset := rfl
@[simp] theorem resetBlock_out (s : State) : (resetBlock s).out = OutPorts.zero := rfl
@[simp] theorem resetBlock_inp (s : State) : (resetBlock s).inp = s.inp := rfl
@[simp] theorem resetBlock_stream (s : State) : (resetBlock s).stream = [] := rfl
@[simp] theorem resetBlock_history (s : State) : (resetBlock s).history = [] := rfl
@[simp] theorem resetBlock_ref (s : State) : (resetBlock s).ref = RefState.empty := rfl
@[simp] theorem resetBlock_stimuli (s : State) : (resetBlock s).stimuli = s.stimuli := rfl
@[simp] theorem resetBlock_draws (s : State) : (resetBlock s).draws = s.draws := rfl

@[simp] theorem holdBlock_regs (s : State) : (holdBlock s).regs = s.regs := rfl
@[simp] theorem holdBlock_out (s : State) : (holdBlock s).out = OutPorts.zero := rfl
@[simp] theorem holdBlock_inp (s : State) : (holdBlock s).inp = s.inp := rfl
@[simp] theorem holdBlock_stream (s : State) : (holdBlock s).stream = s.stream := rfl
@[simp] theorem holdBlock_history (s : State) : (holdBlock s).history = s.history := rfl
@[simp] theorem holdBlock_ref (s : State) : (holdBlock s).ref = s.ref := rfl
@[simp] theorem holdBlock_stimuli (s : State) : (holdBlock s).stimuli = s.stimuli := rfl
@[simp] theorem holdBlock_draws (s : State) : (holdBlock s).draws = s.draws := rfl

/-! ### One turn of the drain loop (41_reference_parser.md R129) -/

@[simp] theorem takeResult_regs (r : ParseResult) (s : State) : (takeResult r s).regs = s.regs := rfl
@[simp] theorem takeResult_out (r : ParseResult) (s : State) : (takeResult r s).out = s.out := rfl
@[simp] theorem takeResult_inp (r : ParseResult) (s : State) : (takeResult r s).inp = s.inp := rfl
@[simp] theorem takeResult_stream (r : ParseResult) (s : State) : (takeResult r s).stream = s.stream := rfl
@[simp] theorem takeResult_history (r : ParseResult) (s : State) : (takeResult r s).history = s.history := rfl
@[simp] theorem takeResult_ref (r : ParseResult) (s : State) : (takeResult r s).ref = ⟨s.ref.buffer.drop r.consumed, s.ref.events ++ r.events, r⟩ := rfl
@[simp] theorem takeResult_stimuli (r : ParseResult) (s : State) : (takeResult r s).stimuli = s.stimuli := rfl
@[simp] theorem takeResult_draws (r : ParseResult) (s : State) : (takeResult r s).draws = s.draws := rfl

end Sys2Proof.Machine
end

