-- ==== Sys2Proof/Laws/Ops.lean ====
section
/-! SUPPORT. One lemma per shared operation: what it can do, for the proofs to cite instead of unfolding it. -/

namespace Sys2Proof.Machine

/-! ### Outputs (42_fsm_operations.md R172) -/

@[simp] theorem ports_nil : ports [] = OutPorts.zero := rfl

@[simp] theorem ports_payloadByte (i : Half) (b : Byte) :
    ports [.payloadByte i b] = { OutPorts.zero with plValid := true, plData := b, plIndex := i } := rfl

@[simp] theorem ports_frame (sh : Shape) (c q : Byte) (L : Half) (k : Byte) :
    ports [.frame sh c q L k] =
      { OutPorts.zero with
        frmValid := true, frmShape := sh.bit, frmCode := c, frmSeq := q, frmLen := L, frmChk := k } := rfl

@[simp] theorem ports_badStart (n : Nat) :
    ports [.error .badStartMarker n] =
      { OutPorts.zero with errBadStart := true, errLen := BitVec.ofNat 17 n } := rfl

@[simp] theorem ports_checksumMismatch (n : Nat) :
    ports [.error .checksumMismatch n] =
      { OutPorts.zero with errChecksum := true, errLen := BitVec.ofNat 17 n } := rfl

@[simp] theorem ports_badLength (n : Nat) :
    ports [.error .badLength n] =
      { OutPorts.zero with errBadLength := true, errLen := BitVec.ofNat 17 n } := rfl

@[simp] theorem ports_unknownShape_badStart (n m : Nat) :
    ports [.error .unknownShape n, .error .badStartMarker m] =
      { OutPorts.zero with errUnknownShape := true, errBadStart := true, errLen := BitVec.ofNat 17 m } := rfl

@[simp] theorem observe_zero : observe OutPorts.zero = [] := rfl

/-! ### Accepting a byte -/

theorem acceptByte_accepted (b : Byte) (g : Regs) (es : List Event) (s : State) :
    Accepted b es s (acceptByte b g es s) :=
  ⟨rfl, rfl, rfl, rfl, rfl, rfl, rfl, rfl⟩

theorem reportErrors_accepted (b : Byte) (g : Regs) (es : List (ErrorKind × Nat)) (s : State) :
    Accepted b (es.map fun e => .error e.1 e.2) s (reportErrors b g es s) :=
  acceptByte_accepted b _ _ s

theorem searchMarker_of_start (s : State) :
    searchMarker Config.startMarker s = acceptByte Config.startMarker { s.regs with st := .shape } [] s :=
  if_pos rfl

theorem searchMarker_of_other (b : Byte) (s : State) (h : b ≠ Config.startMarker) :
    searchMarker b s = reportErrors b s.regs [(.badStartMarker, 1)] s :=
  if_neg h

/-! ### The drain loop's turn -/

theorem takeResult_drained (r : ParseResult) (s : State) :
    Drained r r.events (s.ref.buffer.drop r.consumed) s (takeResult r s) :=
  ⟨rfl, rfl, rfl, ⟨rfl, rfl, rfl, rfl⟩, rfl, rfl, rfl⟩

@[simp] theorem wait_events : ParseResult.wait.events = [] := rfl

@[simp] theorem waitForBytes_eq (s : State) :
    waitForBytes s = { s with ref := { s.ref with last := .wait } } := by
  simp [waitForBytes, takeResult, ParseResult.wait, ParseResult.events]

/-! ### Byte arithmetic -/

theorem addMod256_toNat (a b : Byte) : (addMod256 a b).toNat = (a.toNat + b.toNat) % 256 := by
  simp [addMod256, BitVec.toNat_add]

theorem concatBytes_toNat (hi lo : Byte) : (concatBytes hi lo).toNat = hi.toNat * 256 + lo.toNat := by
  have := lo.isLt
  simp only [concatBytes, BitVec.toNat_append]
  rw [← Nat.shiftLeft_add_eq_or_of_lt this, Nat.shiftLeft_eq]

theorem zext16_toNat (v : Byte) : (zext16 v).toNat = v.toNat := by
  have := v.isLt
  simp only [zext16, BitVec.toNat_setWidth]
  omega

theorem lengthHigh_toNat (len : Half) : (lengthHigh len).toNat = len.toNat / 256 := by
  have := len.isLt
  simp only [lengthHigh, BitVec.extractLsb'_toNat, Nat.shiftRight_eq_div_pow]
  omega

theorem setLengthHigh_toNat (len : Half) (v : Byte) :
    (setLengthHigh len v).toNat = v.toNat * 256 + len.toNat % 256 := by
  simp only [setLengthHigh, concatBytes_toNat, BitVec.extractLsb'_toNat, Nat.shiftRight_zero]

theorem isLastPayload_iff (idx len : Half) : isLastPayload idx len = true ↔ idx.toNat + 2 = len.toNat := by
  simp only [isLastPayload, decide_eq_true_eq]
  omega

@[simp] theorem byteSum_nil : byteSum [] = 0 := rfl

@[simp] theorem byteSum_cons (b : Byte) (s : List Byte) : byteSum (b :: s) = b.toNat + byteSum s := by
  simp [byteSum]

@[simp] theorem byteSum_append (s t : List Byte) : byteSum (s ++ t) = byteSum s + byteSum t := by
  simp [byteSum]

/-! ### What a step runs -/

theorem takeStimulus_cons (s : State) (x : Stimulus) (xs : List Stimulus) (h : s.stimuli = x :: xs) :
    takeStimulus s = (x, { s with stimuli := xs }) := by
  simp [takeStimulus, h]

theorem fetch_edge (s : State) (p : InPorts) (rest : List Stimulus) (h : s.stimuli = .edge p :: rest) :
    fetch s = (.ok (decodeKey (.ctl (ctlKey p.rst p.inValid))), { s with stimuli := rest, inp := p }) := by
  simp [fetch, takeStimulus_cons s _ _ h, selectRow]

theorem fetch_parseCall (s : State) (rest : List Stimulus) (h : s.stimuli = .parseCall :: rest) :
    fetch s = (decodeBuffer s.ref.buffer, { s with stimuli := rest }) := by
  simp [fetch, takeStimulus_cons s _ _ h, selectRow]

end Sys2Proof.Machine
end

