-- ==== Sys2Proof/Laws/PerInstr.lean ====
section
/-! SUPPORT. The family RoundTrip of LAWS.json: what each row's encoding decodes to, one lemma per constructor. -/

namespace Sys2Proof.Laws.RoundTrip

/-- A well-formed row is what its key decodes to (30_encoding.md R77, R81; 42_fsm_operations.md R150). -/
def Statement (i : Instr) : Prop := i.wf = true → decodeKey (encode i) = i

theorem idleSop : Statement .idleSop := fun _ => rfl

theorem idleBadStart (b : Byte) : Statement (.idleBadStart b) := fun h => by
  have hb : b ≠ Config.startMarker := by simpa [Instr.wf] using h
  simp [encode, decodeKey, decodeStByte, hb]

theorem shapeAnswer : Statement .shapeAnswer := fun _ => rfl

theorem shapeAsync : Statement .shapeAsync := fun _ => rfl

theorem shapeUnknown (b : Byte) : Statement (.shapeUnknown b) := fun h => by
  have hb : b ≠ Config.answerMarker ∧ b ≠ Config.asyncMarker := by simpa [Instr.wf] using h
  simp [encode, decodeKey, decodeStByte, hb.1, hb.2]

theorem b2Code (b : Byte) : Statement (.b2Code b) := fun _ => by
  simp [encode, decodeKey, decodeStByte]

theorem b3SeqLenhi (b : Byte) : Statement (.b3SeqLenhi b) := fun _ => by
  simp [encode, decodeKey, decodeStByte]

theorem b4Len (b : Byte) : Statement (.b4Len b) := fun _ => by
  simp [encode, decodeKey, decodeStByte]

theorem payByte (b : Byte) : Statement (.payByte b) := fun _ => by
  simp [encode, decodeKey, decodeStByte]

theorem chkByte (b : Byte) : Statement (.chkByte b) := fun _ => by
  simp [encode, decodeKey, decodeStByte]

theorem st7Reserved (b : Byte) : Statement (.st7Reserved b) := fun _ => by
  simp [encode, decodeKey, decodeStByte]

theorem reset (v : Bool) : Statement (.reset v) := fun _ => by
  simp [encode, decodeKey]

theorem idleCycle : Statement .idleCycle := fun _ => rfl

theorem accept : Statement .accept := fun _ => rfl

theorem refAnswer : Statement .refAnswer := fun _ => rfl

theorem refAsync : Statement .refAsync := fun _ => rfl

theorem refUnknownShape (b1 : Byte) : Statement (.refUnknownShape b1) := fun h => by
  have hb : b1 ≠ Config.answerMarker ∧ b1 ≠ Config.asyncMarker := by simpa [Instr.wf] using h
  simp only [encode, decodeKey, decodePrefix_key, if_neg hb.1, if_neg hb.2]
  rfl

theorem refBadStart (b0 b1 : Byte) : Statement (.refBadStart b0 b1) := fun h => by
  have hb : b0 ≠ Config.startMarker := by simpa [Instr.wf] using h
  simp only [encode, decodeKey, decodePrefix_key, if_neg hb]

end Sys2Proof.Laws.RoundTrip
end

