-- ==== Sys2Proof/Tests/Slice0.lean ====
section
/-! SUPPORT. The model's own tests: expected results are from spec/95_test_vectors.md (the vector ids are named) or worked out from
the rules; and a witness for the hypotheses of every statement. -/

namespace Sys2Proof.Tests

open Sys2Proof.Machine

/-- The next state of an outcome. -/
def nextOf : Host.Outcome State Fault Refusal → Option State
  | .next t => some t
  | .fault _ => none
  | .refused _ => none

/-- The machine after reset, with these state registers. -/
def withRegs (g : Regs) : State := { State.reset with regs := g }

/-- The machine after reset, with this ReceiveBuffer. -/
def withBuffer (b : List Byte) : State := { State.reset with ref := { RefState.empty with buffer := b } }

/-- One step on the next stimulus `x`. -/
def stepOn (x : Stimulus) (s : State) : Option State := nextOf (step { s with stimuli := x :: s.stimuli })

/-! ### Well-formedness: one ill-formed term for each check -/

theorem test_wf_idleBadStart_refused : (Instr.idleBadStart 0xFF).wf = false := by decide
theorem test_wf_shapeUnknown_answer_refused : (Instr.shapeUnknown 0xFF).wf = false := by decide
theorem test_wf_shapeUnknown_async_refused : (Instr.shapeUnknown 0xFE).wf = false := by decide
theorem test_wf_refUnknownShape_answer_refused : (Instr.refUnknownShape 0xFF).wf = false := by decide
theorem test_wf_refUnknownShape_async_refused : (Instr.refUnknownShape 0xFE).wf = false := by decide
theorem test_wf_refBadStart_refused : (Instr.refBadStart 0xFF 0x00).wf = false := by decide
theorem test_wf_idleBadStart_admits_fe : (Instr.idleBadStart 0xFE).wf = true := by decide

/-! ### Decoding: words written out from R81, R77 and R150 -/

theorem test_decode_idleSop : decodeTableWord 16 0b00011111111 = some .idleSop := by decide
theorem test_decode_idleBadStart : decodeTableWord 16 0b00011111110 = some (.idleBadStart 0xFE) := by decide
theorem test_decode_shapeAnswer : decodeTableWord 16 0b00111111111 = some .shapeAnswer := by decide
theorem test_decode_shapeAsync : decodeTableWord 16 0b00111111110 = some .shapeAsync := by decide
theorem test_decode_shapeUnknown : decodeTableWord 16 0b00111111101 = some (.shapeUnknown 0xFD) := by decide
theorem test_decode_b2Code : decodeTableWord 16 0b01010100101 = some (.b2Code 0xA5) := by decide
theorem test_decode_b3SeqLenhi : decodeTableWord 16 0b01110000001 = some (.b3SeqLenhi 0x81) := by decide
theorem test_decode_b4Len : decodeTableWord 16 0b10000000011 = some (.b4Len 3) := by decide
theorem test_decode_payByte : decodeTableWord 16 0b10111111110 = some (.payByte 0xFE) := by decide
theorem test_decode_chkByte : decodeTableWord 16 0b11011111101 = some (.chkByte 0xFD) := by decide
theorem test_decode_st7Reserved : decodeTableWord 16 0b11100000000 = some (.st7Reserved 0) := by decide
theorem test_decode_reset : decodeTableWord 8 0b10 = some (.reset false) := by decide
theorem test_decode_reset_inValid : decodeTableWord 8 0b11 = some (.reset true) := by decide
theorem test_decode_idleCycle : decodeTableWord 8 0b00 = some .idleCycle := by decide
theorem test_decode_accept : decodeTableWord 8 0b01 = some .accept := by decide
theorem test_decode_refAnswer : decodeTableWord 16 0b1111111111111111 = some .refAnswer := by decide
theorem test_decode_refAsync : decodeTableWord 16 0b1111111111111110 = some .refAsync := by decide
theorem test_decode_refUnknownShape : decodeTableWord 16 0b1111111100010010 = some (.refUnknownShape 0x12) := by decide
theorem test_decode_refBadStart : decodeTableWord 16 0b1111111011111111 = some (.refBadStart 0xFE 0xFF) := by decide
theorem test_decode_refuses_ctl_bits : decodeWord 8 0b100 = .error .notACtlKey := by rfl
theorem test_decode_refuses_wide_key : decodeWord 16 0x10000 = .error .keyTooWide := by rfl
theorem test_decode_refuses_width : decodeWord 24 0 = .error .noSuchFormat := by rfl
theorem test_decodeBuffer_refuses_lone_byte : decodeBuffer [0x12] = .error .needsTwoBytes := by rfl
theorem test_decodeBuffer_first_byte_high :
    decodeBuffer [0x00, 0xFF] = .ok (.refBadStart 0x00 0xFF) := by rfl

/-! ### The rows, one step each -/

/-- S2. -/
theorem test_idleSop : (nextOf (exec .idleSop State.reset)).map (fun t => (t.regs.st, observe t.out)) = some (.shape, []) := by
  decide
/-- S3. -/
theorem test_idleBadStart :
    (nextOf (exec (.idleBadStart 0) State.reset)).map (fun t => (t.regs.st, t.history, t.out.errLen)) =
      some (.idle, [.error .badStartMarker 1], 1) := by decide
/-- S4. -/
theorem test_shapeAnswer :
    (nextOf (exec .shapeAnswer (withRegs ⟨.shape, .async, 0, 0, 0, 0, 0⟩))).map (fun t => (t.regs.st, t.regs.shape)) =
      some (.b2, .answer) := by decide
/-- S5. -/
theorem test_shapeAsync :
    (nextOf (exec .shapeAsync (withRegs ⟨.shape, .answer, 0, 0, 0, 0, 0⟩))).map (fun t => (t.regs.st, t.regs.shape)) =
      some (.b2, .async) := by decide
/-- S6, T6: the ports of the double error. -/
theorem test_shapeUnknown :
    (nextOf (exec (.shapeUnknown 0x12) (withRegs ⟨.shape, .answer, 0, 0, 0, 0, 0⟩))).map (fun t => (t.regs.st, t.out)) =
      some (.idle, { OutPorts.zero with errUnknownShape := true, errBadStart := true, errLen := 1 }) := by decide
theorem test_shapeUnknown_order :
    (nextOf (exec (.shapeUnknown 0x12) State.reset)).map (fun t => t.history) =
      some [.error .unknownShape 1, .error .badStartMarker 1] := by decide
/-- S7: the old `acc` is overwritten. -/
theorem test_b2Code :
    (nextOf (exec (.b2Code 0) (withRegs ⟨.b2, .answer, 0x11, 0, 0, 0, 0x6D⟩))).map (fun t => t.regs) =
      some ⟨.b3, .answer, 0, 0, 0, 0, 0⟩ := by decide
/-- S8, with a stale `len` as in P3 step 10. -/
theorem test_b3SeqLenhi_answer :
    (nextOf (exec (.b3SeqLenhi 1) (withRegs ⟨.b3, .answer, 0, 7, 2, 1, 0⟩))).map (fun t => t.regs) =
      some ⟨.b4, .answer, 0, 1, 2, 1, 1⟩ := by decide
/-- S10. -/
theorem test_b3SeqLenhi_async :
    (nextOf (exec (.b3SeqLenhi 1) (withRegs ⟨.b3, .async, 0x11, 9, 0, 0, 0x11⟩))).map (fun t => t.regs) =
      some ⟨.b4, .async, 0x11, 0, 0x100, 0, 0x12⟩ := by decide
/-- S13. -/
theorem test_b4Len_zero :
    (nextOf (exec (.b4Len 0) (withRegs ⟨.b4, .answer, 0, 0, 0, 0, 0⟩))).map (fun t => (t.regs.st, t.history, t.out.errLen)) =
      some (.idle, [.error .badLength 5], 5) := by decide
/-- S16. -/
theorem test_b4Len_async_max :
    (nextOf (exec (.b4Len 0xFF) (withRegs ⟨.b4, .async, 0, 0, 0xFF00, 3, 0xFF⟩))).map (fun t => t.regs) =
      some ⟨.pay, .async, 0, 0, 0xFFFF, 0, 0xFE⟩ := by decide
/-- S18. -/
theorem test_payByte :
    (nextOf (exec (.payByte 0xAA) (withRegs ⟨.pay, .answer, 0, 5, 3, 0, 0x08⟩))).map (fun t => (t.regs, t.history)) =
      some (⟨.pay, .answer, 0, 5, 3, 1, 0xB2⟩, [.payloadByte 0 0xAA]) := by decide
/-- S19. -/
theorem test_payByte_last :
    (nextOf (exec (.payByte 0xBB) (withRegs ⟨.pay, .answer, 0, 5, 3, 1, 0xB2⟩))).map (fun t => (t.regs, t.out.plIndex)) =
      some (⟨.chk, .answer, 0, 5, 3, 2, 0x6D⟩, 1) := by decide
/-- S22. -/
theorem test_chkByte_commit :
    (nextOf (exec (.chkByte 0x92) (withRegs ⟨.chk, .answer, 0, 5, 3, 2, 0x6D⟩))).map (fun t => (t.regs.st, t.history)) =
      some (.idle, [.frame .answer 0 5 3 0x92]) := by decide
/-- S24: `err_len` needs 17 bits. -/
theorem test_chkByte_abort :
    (nextOf (exec (.chkByte 0) (withRegs ⟨.chk, .async, 0, 0, 0xFFFF, 0xFFFE, 0xFE⟩))).map (fun t => (t.regs.st, t.out)) =
      some (.idle, { OutPorts.zero with errChecksum := true, errLen := 65540 }) := by decide
/-- S26. -/
theorem test_st7Reserved :
    (nextOf (exec (.st7Reserved 0xFF) (withRegs ⟨.reserved7, .answer, 0, 0, 0, 0, 0⟩))).map (fun t => (t.regs.st, t.history)) =
      some (.shape, []) := by decide
/-- E11. -/
theorem test_st7Reserved_other :
    (nextOf (exec (.st7Reserved 0) (withRegs ⟨.reserved7, .answer, 0, 0, 0, 0, 0⟩))).map (fun t => (t.regs.st, t.history)) =
      some (.idle, [.error .badStartMarker 1]) := by decide
/-- T1, with a byte presented as in T3. -/
theorem test_reset :
    (stepOn (resetEdge true 0) (withRegs ⟨.pay, .async, 1, 2, 9, 3, 4⟩)).map (fun t => (t.regs, t.out, t.stream)) =
      some (Regs.reset, OutPorts.zero, []) := by decide
/-- S1, T7. -/
theorem test_idleCycle :
    (stepOn (idleEdge 0x55)
      { withRegs ⟨.b3, .answer, 0x12, 0, 0, 0, 0x12⟩ with out := { OutPorts.zero with plValid := true, plData := 9 } }).map
        (fun t => (t.regs, t.out)) =
      some (⟨.b3, .answer, 0x12, 0, 0, 0, 0x12⟩, OutPorts.zero) := by decide
/-- R153: the byte of the port is dispatched on `st`, and joins the stream. -/
theorem test_accept :
    (stepOn (byteEdge 0xFE) (withRegs ⟨.shape, .answer, 0, 0, 0, 0, 0⟩)).map
        (fun t => (t.regs.st, t.regs.shape, t.stream, t.ref.buffer)) =
      some (.b2, .async, [0xFE], [0xFE]) := by decide
/-- Q11, V-SRC-2. -/
theorem test_refAnswer :
    (stepOn .parseCall (withBuffer [0xFF, 0xFF, 0, 1, 1, 0xFD, 0x33])).map (fun t => (t.ref.buffer, t.ref.events)) =
      some ([0x33], [.frame (.answer 0 1 1 [] 0xFD)]) := by decide
/-- Q12. -/
theorem test_refAnswer_mismatch :
    (stepOn .parseCall (withBuffer [0xFF, 0xFF, 1, 7, 2, 0x56, 0xA0, 0xFF])).map (fun t => (t.ref.buffer, t.ref.last)) =
      some ([0xFF], ⟨7, none, some .checksumMismatch⟩) := by decide
/-- V-SRC-3. -/
theorem test_refAsync :
    (stepOn .parseCall (withBuffer [0xFF, 0xFE, 3, 0, 4, 0x10, 0x20, 0x30, 0x98])).map (fun t => (t.ref.buffer, t.ref.events)) =
      some ([], [.frame (.async 3 4 [0x10, 0x20, 0x30] 0x98)]) := by decide
/-- Q9. -/
theorem test_refAsync_badLength :
    (stepOn .parseCall (withBuffer [0xFF, 0xFE, 0, 0, 0])).map (fun t => t.ref.last) =
      some ⟨5, none, some .badLength⟩ := by decide
/-- Q4. -/
theorem test_refUnknownShape :
    (stepOn .parseCall (withBuffer [0xFF, 0x12])).map (fun t => (t.ref.last, t.ref.buffer)) =
      some (⟨1, none, some .unknownShape⟩, [0x12]) := by decide
/-- Q3. -/
theorem test_refBadStart :
    (stepOn .parseCall (withBuffer [0x00, 0xFF])).map (fun t => (t.ref.last, t.ref.buffer)) =
      some (⟨1, none, some .badStartMarker⟩, [0xFF]) := by decide
/-- Q2: a lone bad byte waits. -/
theorem test_parse_lone_byte :
    (stepOn .parseCall (withBuffer [0x12])).map (fun t => (t.ref.last, t.ref.buffer)) = some (.wait, [0x12]) := by decide

/-! ### Checksum, drain, and the fetch of a table word -/

/-- K1 to K4. -/
theorem test_checksum :
    [checksum [], checksum [0, 1, 1], checksum [0xFF, 0xFF], checksum [0x80, 0x80]] = [0xFF, 0xFD, 0x01, 0xFF] := by decide
/-- K12 to K15. -/
theorem test_accValid :
    [accValid 0xFF 0, accValid 0xFF 1, accValid 0 0xFF, accValid 0 0] = [true, false, true, false] := by decide
/-- Q14. -/
theorem test_refDrain :
    refDrain [0xFF, 0x12, 0] = ([.error .unknownShape 1, .error .badStartMarker 1], [0]) := by decide
/-- Q15: the guarded loop reports nothing here. -/
theorem test_guardedDrain : (guardedDrain [0xFF, 0x12, 0]).1 = [] := by decide
theorem test_withFetchWord_payByte :
    (nextOf (step (State.reset.withFetchWord 16 0x5FE))).map (fun t => t.history) = some [.payloadByte 0 0xFE] := by decide
theorem test_withFetchWord_reset :
    (nextOf (step (State.reset.withFetchWord 8 0b11))).map (fun t => (t.regs, t.inp.inValid)) = some (Regs.reset, true) := by
  decide
theorem test_withFetchWord_refUnknownShape :
    (nextOf (step (State.reset.withFetchWord 16 0xFF12))).map (fun t => t.ref.buffer) = some [0x12] := by decide

/-! ### Witnesses: states and operands that meet the hypotheses of the statements -/

theorem witness_RowsDecodeAfterEncode : (Instr.refBadStart 0xFE 0xFF).wf = true := by decide
theorem witness_DecoderFollowsTablePriority :
    (Instr.idleBadStart 0).tableRow.covers (.stByte 0x0FF) = true ∧ Instr.idleSop.tableRow.covers (.stByte 0x0FF) = true := by
  decide
theorem witness_StepRunsTheSelectedRow_edge :
    { State.reset with stimuli := [byteEdge 1] }.stimuli = .edge ⟨false, true, 1⟩ :: [] := rfl
theorem witness_StepRunsTheSelectedRow_row :
    { withBuffer [1, 2] with stimuli := [.parseCall] }.stimuli = .parseCall :: [] ∧
      { withBuffer [1, 2] with stimuli := [.parseCall] }.ref.buffer = 1 :: 2 :: [] := ⟨rfl, rfl⟩
theorem witness_StepRunsTheSelectedRow_wait :
    { withBuffer [1] with stimuli := [.parseCall] }.stimuli = .parseCall :: [] ∧
      { withBuffer [1] with stimuli := [.parseCall] }.ref.buffer.length < 2 := by decide
theorem witness_StepRunsTheSelectedRow_draw : State.reset.stimuli = [] := rfl
theorem witness_ResetIsTestedFirst_reset :
    { State.reset with stimuli := [resetEdge true 7] }.stimuli = .edge ⟨true, true, 7⟩ :: [] := rfl
theorem witness_ResetIsTestedFirst_idle :
    { State.reset with stimuli := [idleEdge 7] }.stimuli = .edge ⟨false, false, 7⟩ :: [] := rfl
theorem witness_ResetIsTestedFirst_accept :
    { State.reset with stimuli := [byteEdge 7] }.stimuli = .edge ⟨false, true, 7⟩ :: [] := rfl
/-- R234, R235: the boot from the unspecified state before the first reset meets the hypothesis. -/
theorem witness_ResetBeginsANewRun :
    { State.powerUp with stimuli := [resetEdge false 0] }.stimuli = resetEdge false 0 :: [] := rfl
theorem witness_FrameWaitsThroughIdleSteps :
    { State.reset with stimuli := [idleEdge 1, idleEdge 2, byteEdge 3] }.stimuli = [1, 2].map idleEdge ++ [byteEdge 3] := rfl
theorem witness_ReservedStateActsAsIdle : (0xFF : Byte) = 0xFF ∧ (0xFE : Byte) ≠ 0xFF := by decide
theorem witness_ThirdByteIsSequenceOrLengthHigh :
    (withRegs ⟨.b3, .answer, 0, 0, 0, 0, 0⟩).regs.shape = .answer ∧ (withRegs ⟨.b3, .async, 0, 0, 0, 0, 0⟩).regs.shape = .async := by
  decide
/-- The three clauses on the new length at their boundaries 0, 1 and 2, for both shapes' premises. -/
theorem witness_FourthByteCompletesTheLength :
    (nextOf (exec (.b4Len 0) (withRegs ⟨.b4, .answer, 0, 0, 0xFF00, 0, 0⟩))).map (fun t => t.regs.len) = some 0 ∧
    (nextOf (exec (.b4Len 1) (withRegs ⟨.b4, .async, 0, 0, 0, 0, 0⟩))).map (fun t => t.regs.len.toNat) = some 1 ∧
    (nextOf (exec (.b4Len 2) (withRegs ⟨.b4, .async, 0, 0, 0, 0, 0⟩))).map (fun t => t.regs.len.toNat) = some 2 := by decide
/-- The corners of log 6: `idx` 65535 at `len` 1, and `len` 0. -/
theorem witness_PayloadByteIsStreamed_corners :
    (withRegs ⟨.pay, .answer, 0, 0, 1, 65535, 0⟩).regs.idx.toNat + 2 ≠ (withRegs ⟨.pay, .answer, 0, 0, 1, 65535, 0⟩).regs.len.toNat ∧
    (withRegs ⟨.pay, .answer, 0, 0, 0, 0, 0⟩).regs.idx.toNat + 2 ≠ (withRegs ⟨.pay, .answer, 0, 0, 0, 0, 0⟩).regs.len.toNat := by
  decide
theorem witness_PayloadByteIsStreamed :
    (withRegs ⟨.pay, .answer, 0, 0, 2, 0, 0⟩).regs.idx.toNat + 2 = (withRegs ⟨.pay, .answer, 0, 0, 2, 0, 0⟩).regs.len.toNat ∧
    (withRegs ⟨.pay, .answer, 0, 0, 3, 0, 0⟩).regs.idx.toNat + 2 ≠ (withRegs ⟨.pay, .answer, 0, 0, 3, 0, 0⟩).regs.len.toNat := by
  decide
theorem witness_ChecksumByteCommitsOrAborts :
    (0xFD : Byte) = (withRegs ⟨.chk, .answer, 0, 1, 1, 0, 2⟩).regs.acc ^^^ 0xFF ∧
    (0xFE : Byte) ≠ (withRegs ⟨.chk, .answer, 0, 1, 1, 0, 2⟩).regs.acc ^^^ 0xFF := by decide
theorem witness_EventsOfOneAcceptStep : (nextOf (exec .accept State.reset)).isSome = true := by decide
theorem witness_PortsAfterAnEdge :
    ∃ t, { State.reset with stimuli := [byteEdge 0] }.stimuli = .edge ⟨false, true, 0⟩ :: [] ∧
      step { State.reset with stimuli := [byteEdge 0] } = .next t := ⟨_, rfl, rfl⟩
theorem witness_ErrorsLeaveIdle :
    ∃ t, { State.reset with stimuli := [byteEdge 0] }.stimuli = .edge ⟨false, true, 0⟩ :: [] ∧
      step { State.reset with stimuli := [byteEdge 0] } = .next t ∧ .error .badStartMarker 1 ∈ observe t.out :=
  ⟨_, rfl, rfl, by decide⟩
theorem witness_OffsetAdvancesByOneOrReturns :
    FrameInvariants State.reset ∧ ∃ t, exec .accept State.reset = .next t :=
  ⟨⟨nofun, nofun, nofun, nofun, nofun, nofun⟩, _, rfl⟩
theorem witness_BodyRunsToItsChecksum_empty :
    let s := { withRegs ⟨.chk, .answer, 0, 1, 1, 0, 2⟩ with stimuli := [byteEdge 0xFD] }
    s.regs.st = (if ([] : List Byte) = [] then St.chk else .pay) ∧ s.regs.idx = 0 ∧ s.regs.len.toNat = ([] : List Byte).length + 1 ∧
      s.stimuli = (([] : List Byte) ++ [0xFD]).map byteEdge ++ [] := by decide
theorem witness_BodyRunsToItsChecksum_payload :
    let s := { withRegs ⟨.pay, .answer, 0, 5, 3, 0, 8⟩ with stimuli := [byteEdge 0xAA, byteEdge 0xBB, byteEdge 0x92] }
    s.regs.st = (if ([0xAA, 0xBB] : List Byte) = [] then St.chk else .pay) ∧ s.regs.idx = 0 ∧
      s.regs.len.toNat = ([0xAA, 0xBB] : List Byte).length + 1 ∧
      s.stimuli = (([0xAA, 0xBB] : List Byte) ++ [0x92]).map byteEdge ++ [] := by decide
/-- The largest Answer payload, lined up as a whole frame. -/
theorem witness_FramesAreReportedFromIdle_answer :
    ∃ (s : State) (p : List Byte), s.regs.st = .idle ∧ p.length = 254 ∧ p.length ≤ 254 ∧
      s.stimuli = (answerBytes 1 2 p 3).map byteEdge ++ [] :=
  ⟨{ State.reset with stimuli := (answerBytes 1 2 (List.replicate 254 0) 3).map byteEdge ++ [] }, List.replicate 254 0,
    rfl, List.length_replicate, List.length_replicate.le, rfl⟩
/-- The largest Async payload, lined up as a whole frame. -/
theorem witness_FramesAreReportedFromIdle_async :
    ∃ (s : State) (p : List Byte), s.regs.st = .idle ∧ p.length = 65534 ∧ p.length ≤ 65534 ∧
      s.stimuli = (asyncBytes 1 p 3).map byteEdge ++ [] :=
  ⟨{ State.reset with stimuli := (asyncBytes 1 (List.replicate 65534 0) 3).map byteEdge ++ [] }, List.replicate 65534 0,
    rfl, List.length_replicate, List.length_replicate.le, rfl⟩
theorem witness_ChecksumIgnoresOrder : ([1, 2] : List Byte).Perm [2, 1] := List.Perm.swap 2 1 []
theorem witness_WhatTheChecksumDetects_change :
    checksumValid ([0, 1] ++ 1 :: []) 0xFD = true ∧ (1 : Byte) ≠ 2 ∧ (0xFD : Byte) ≠ 0xFE := by decide
/-- K16, K17: the covered bytes of the two frames. -/
theorem witness_WhatTheChecksumDetects_compensating :
    byteSum [1, 7, 2, 0x55] % 256 = byteSum [2, 7, 2, 0x54] % 256 := by decide
theorem witness_AnswerPathOfTheReference_short : (withBuffer [0xFF, 0xFF, 0, 1]).ref.buffer.length < 5 := by decide
theorem witness_AnswerPathOfTheReference_zero :
    (withBuffer [0xFF, 0xFF, 0, 0, 0, 9]).ref.buffer = 0xFF :: 0xFF :: 0 :: 0 :: 0 :: [9] := rfl
theorem witness_AnswerPathOfTheReference_wait :
    (withBuffer [0xFF, 0xFF, 0, 0, 1]).ref.buffer = 0xFF :: 0xFF :: 0 :: 0 :: 1 :: [] ∧ ([] : List Byte).length < (1 : Byte).toNat := by
  decide
theorem witness_AnswerPathOfTheReference_frame :
    (withBuffer [0xFF, 0xFF, 1, 7, 2, 0x55, 0xA0]).ref.buffer = 0xFF :: 0xFF :: 1 :: 7 :: 2 :: [0x55, 0xA0] ∧ ([0x55, 0xA0] : List Byte) = [0x55] ++ 0xA0 :: [] ∧ (2 : Byte).toNat = ([0x55] : List Byte).length + 1 ∧
      (0xA0 : Byte) = checksum (1 :: 7 :: 2 :: [0x55]) ∧ (0xA0 : Byte) ≠ checksum (1 :: 7 :: 2 :: [0x56]) := by decide
theorem witness_AsyncPathOfTheReference_short : (withBuffer [0xFF, 0xFE, 0, 1]).ref.buffer.length < 5 := by decide
theorem witness_AsyncPathOfTheReference_zero :
    (withBuffer [0xFF, 0xFE, 0, 0, 0]).ref.buffer = 0xFF :: 0xFE :: 0 :: 0 :: 0 :: [] ∧ 0 = (0 : Byte).toNat * 256 + (0 : Byte).toNat := by
  decide
theorem witness_AsyncPathOfTheReference_wait :
    (withBuffer [0xFF, 0xFE, 0, 1, 0, 7]).ref.buffer = 0xFF :: 0xFE :: 0 :: 1 :: 0 :: [7] ∧ 256 = (1 : Byte).toNat * 256 + (0 : Byte).toNat ∧ ([7] : List Byte).length < 256 := by decide
theorem witness_AsyncPathOfTheReference_frame :
    (withBuffer [0xFF, 0xFE, 0x12, 0, 2, 0xAB, 0x40]).ref.buffer = 0xFF :: 0xFE :: 0x12 :: 0 :: 2 :: [0xAB, 0x40] ∧
      2 = (0 : Byte).toNat * 256 + (2 : Byte).toNat ∧ ([0xAB, 0x40] : List Byte) = [0xAB] ++ 0x40 :: [] ∧ 2 = ([0xAB] : List Byte).length + 1 ∧
      (0x40 : Byte) = checksum (0x12 :: 0 :: 2 :: [0xAB]) ∧ (0x41 : Byte) ≠ checksum (0x12 :: 0 :: 2 :: [0xAB]) := by decide
theorem witness_PrefixRowsAreParse :
    ([1] : List Byte).length < 2 ∧ (withBuffer [0xFF, 0x12]).ref.buffer = 0xFF :: 0x12 :: [] := by decide
theorem witness_ParseIsPrefixStable : 1 ≤ (parse [0, 0]).consumed ∧ parse [0xFF, 0xFF, 0] = ⟨0, none, none⟩ := by decide
theorem witness_GuardedLoopReportsAPrefix : 5 ≤ (guardedDrain [0xFF, 0xFF, 0, 1, 1]).2.length := by decide
/-- The longest proper prefix of V-SRC-2. -/
theorem witness_ParserPropertiesOfTheSource_prefix :
    ([0xFD] : List Byte) ≠ [] ∧ ([0xFF, 0xFF, 0, 1, 1] : List Byte).length < 5 + ([0xFD] : List Byte).length ∧
    ([0xFD] : List Byte).length = (if (0xFF : Byte) = 0xFF then (1 : Byte).toNat else 0) ∧
      ([0xFF, 0xFF, 0, 1, 1] : List Byte) <+: (0xFF :: 0xFF :: 0 :: 1 :: 1 :: [0xFD]) := by decide
theorem witness_ParserPropertiesOfTheSource_errors : (0xFE : Byte) ≠ 0xFF ∧ (0x12 : Byte) ≠ 0xFF ∧ (0x12 : Byte) ≠ 0xFE := by decide
theorem witness_ParserPropertiesOfTheSource_corrupted :
    (∃ u : List Byte, u.length = 253) ∧ ([] : List Byte).length = 0 ∧ (0x55 : Byte) ≠ 0x56 :=
  ⟨⟨List.replicate 253 0, List.length_replicate⟩, rfl, by decide⟩
theorem witness_EveryStepKeepsTheAgreement :
    Inv { State.reset with stimuli := [byteEdge 0x12] } ∧
      ∃ t, step { State.reset with stimuli := [byteEdge 0x12] } = .next t :=
  ⟨⟨rfl, rfl, rfl, rfl, rfl⟩, _, rfl⟩
theorem witness_FrameInvariantsOnEveryRun : Reachable { State.reset with stimuli := [byteEdge 0xFF] } := .reset _
theorem witness_BlockReportsWhatTheReferenceReports : ([0] : List Byte) ≠ [] := by decide
theorem witness_AgreementGivesFrameInvariants : Inv { State.reset with stimuli := [.parseCall] } := ⟨rfl, rfl, rfl, rfl, rfl⟩
/-- P4: a reset inside a frame, with an Idle edge; only the bytes after it are the stream. -/
theorem test_acceptedSinceReset :
    acceptedSinceReset [byteEdge 0xFF, byteEdge 0xFF, resetEdge true 9, byteEdge 0xFF, idleEdge 7, .parseCall, byteEdge 0xFE] =
      [0xFF, 0xFE] := by decide
theorem witness_ReportedBytesPartitionTheStream : Inv State.reset := ⟨rfl, rfl, rfl, rfl, rfl⟩
theorem witness_ParseCallsLeaveTheBlock :
    { State.reset with stimuli := [.parseCall] }.stimuli = Stimulus.parseCall :: [] := rfl

end Sys2Proof.Tests
end

section
/-! PROOFS. What a step does, said once: which row a stimulus runs, and what the rule of the current `st` makes of an accepted byte
(42_fsm_operations.md R150 to R161). -/

namespace Sys2Proof.Machine

/-! ### The codes of the tables (10_state.md R24, R25) -/

theorem St.ofBits_bits (x : St) : St.ofBits x.bits = x := by
  cases x <;> rfl

theorem St.bits_ofBits : ∀ v : BitVec 3, (St.ofBits v).bits = v := by
  decide

theorem Shape.ofBit_bit (x : Shape) : Shape.ofBit x.bit = x := by
  cases x <;> rfl

theorem Shape.bit_ofBit : ∀ v : BitVec 1, (Shape.ofBit v).bit = v := by
  decide

/-- Settles O5: every code is read back, and each name has the code of its table. -/
theorem codesOfTheTables : Obligations.CodesOfTheTables :=
  ⟨St.bits_ofBits, St.ofBits_bits, Shape.bit_ofBit, Shape.ofBit_bit,
    ⟨rfl, rfl, rfl, rfl, rfl, rfl, rfl⟩, ⟨rfl, rfl⟩, rfl, rfl, rfl, rfl⟩

/-! ### The rules of the states -/

/-- The state rules R154 to R161 with the byte `b` in the registers `g`: the new registers and the events. An Accept step follows
one of them (`exec_accept_follows_rule`). -/
inductive StateRule (g : Regs) (b : Byte) : Regs → List Event → Prop where
  | startFound : g.st = .idle ∨ g.st = .reserved7 → b = Config.startMarker → StateRule g b { g with st := .shape } []
  | badStart : g.st = .idle ∨ g.st = .reserved7 → b ≠ Config.startMarker →
      StateRule g b { g with st := .idle } [.error .badStartMarker 1]
  | shapeSelected : g.st = .shape → b = Config.answerMarker ∨ b = Config.asyncMarker →
      StateRule g b { g with shape := markerShape b, st := .b2 } []
  | shapeUnknown : g.st = .shape → b ≠ Config.answerMarker → b ≠ Config.asyncMarker →
      StateRule g b { g with st := .idle } [.error .unknownShape 1, .error .badStartMarker 1]
  | code : g.st = .b2 → StateRule g b { g with code := b, acc := b, st := .b3 } []
  | third : g.st = .b3 →
      StateRule g b
        { g with
          seq := sequenceOf g.shape b
          len := setLengthHigh g.len (lengthHighOf g.shape b)
          acc := addMod256 g.acc b
          st := .b4 } []
  | zeroLength : g.st = .b4 → newLength g b = 0 →
      StateRule g b { g with len := newLength g b, acc := addMod256 g.acc b, idx := 0, st := .idle } [.error .badLength 5]
  | emptyPayload : g.st = .b4 → newLength g b = 1 →
      StateRule g b { g with len := newLength g b, acc := addMod256 g.acc b, idx := 0, st := .chk } []
  | payloadFollows : g.st = .b4 → newLength g b ≠ 0 → newLength g b ≠ 1 →
      StateRule g b { g with len := newLength g b, acc := addMod256 g.acc b, idx := 0, st := .pay } []
  | payload : g.st = .pay →
      StateRule g b
        { g with
          acc := addMod256 g.acc b
          idx := g.idx + 1
          st := if isLastPayload g.idx g.len then .chk else .pay } [.payloadByte g.idx b]
  | commit : g.st = .chk → accValid g.acc b = true →
      StateRule g b { g with st := .idle } [.frame g.shape g.code g.seq g.len b]
  | mismatch : g.st = .chk → accValid g.acc b = false →
      StateRule g b { g with st := .idle } [.error .checksumMismatch (5 + g.len.toNat)]

/-- The search for the start marker, in IDLE and in the reserved state (R154, R161). -/
theorem searchMarker_follows_rule (b : Byte) (s : State) (h : s.regs.st = .idle ∨ s.regs.st = .reserved7) :
    ∃ g es, StateRule s.regs b g es ∧ searchMarker b s = acceptByte b g es s := by
  by_cases hb : b = Config.startMarker
  · exact ⟨_, _, .startFound h hb, by rw [hb, searchMarker_of_start]⟩
  · exact ⟨_, _, .badStart h hb, searchMarker_of_other b s hb⟩

theorem acceptIdle_eq_searchMarker (b : Byte) (s : State) : acceptIdle b s = .next (searchMarker b s) := by
  by_cases hb : b = Config.startMarker
  · subst hb; rfl
  · rw [acceptIdle, if_neg hb, searchMarker_of_other b s hb]; rfl

theorem acceptShape_follows_rule (b : Byte) (s : State) (h : s.regs.st = .shape) :
    ∃ g es, StateRule s.regs b g es ∧ acceptShape b s = .next (acceptByte b g es s) := by
  by_cases hFF : b = Config.answerMarker
  · exact ⟨_, _, .shapeSelected h (.inl hFF), by subst hFF; rfl⟩
  by_cases hFE : b = Config.asyncMarker
  · exact ⟨_, _, .shapeSelected h (.inr hFE), by subst hFE; rfl⟩
  · exact ⟨_, _, .shapeUnknown h hFF hFE, by rw [acceptShape, if_neg hFF, if_neg hFE]; rfl⟩

theorem execB4Len_follows_rule (b : Byte) (s : State) (h : s.regs.st = .b4) :
    ∃ g es, StateRule s.regs b g es ∧ execB4Len b s = .next (acceptByte b g es s) := by
  by_cases h0 : newLength s.regs b = 0
  · exact ⟨_, _, .zeroLength h h0, if_pos h0⟩
  by_cases h1 : newLength s.regs b = 1
  · exact ⟨_, _, .emptyPayload h h1, (if_neg h0).trans (if_pos h1)⟩
  · exact ⟨_, _, .payloadFollows h h0 h1, (if_neg h0).trans (if_neg h1)⟩

theorem execChkByte_follows_rule (b : Byte) (s : State) (h : s.regs.st = .chk) :
    ∃ g es, StateRule s.regs b g es ∧ execChkByte b s = .next (acceptByte b g es s) := by
  by_cases hv : accValid s.regs.acc b = true
  · exact ⟨_, _, .commit h hv, if_pos hv⟩
  · exact ⟨_, _, .mismatch h (by simpa using hv), if_neg hv⟩

/-- R153: an Accept step takes the port's byte by the rule of the current `st`. -/
theorem exec_accept_follows_rule (s : State) :
    ∃ g es, StateRule s.regs s.inp.inData g es ∧ exec .accept s = .next (acceptByte s.inp.inData g es s) := by
  simp only [exec, execAccept]
  cases h : s.regs.st with
  | idle =>
    obtain ⟨g, es, hrule, heq⟩ := searchMarker_follows_rule s.inp.inData s (.inl h)
    exact ⟨g, es, hrule, by rw [← heq]; exact acceptIdle_eq_searchMarker _ s⟩
  | shape => exact acceptShape_follows_rule _ s h
  | b2 => exact ⟨_, _, .code h, rfl⟩
  | b3 => exact ⟨_, _, .third h, rfl⟩
  | b4 => exact execB4Len_follows_rule _ s h
  | pay => exact ⟨_, _, .payload h, rfl⟩
  | chk => exact execChkByte_follows_rule _ s h
  | reserved7 =>
    obtain ⟨g, es, hrule, heq⟩ := searchMarker_follows_rule s.inp.inData s (.inr h)
    exact ⟨g, es, hrule, by rw [← heq]; rfl⟩

/-- What an Accept step can do, as an inversion. -/
theorem exec_accept_cases {s t : State} (h : exec .accept s = .next t) :
    ∃ g es, StateRule s.regs s.inp.inData g es ∧ t = acceptByte s.inp.inData g es s := by
  obtain ⟨g, es, hrule, heq⟩ := exec_accept_follows_rule s
  exact ⟨g, es, hrule, Host.Outcome.next.inj (h.symm.trans heq)⟩

/-- R173: the six event lists of an Accept step, each in the states it belongs to. -/
theorem StateRule.events_form {g g' : Regs} {b : Byte} {es : List Event} (h : StateRule g b g' es) :
    (es = [] ∧ g.st ≠ .pay ∧ g.st ≠ .chk) ∨
    (g.st = .pay ∧ ∃ i b, es = [.payloadByte i b]) ∨
    (g.st = .chk ∧ ((∃ sh c q L k, es = [.frame sh c q L k]) ∨ ∃ n, es = [.error .checksumMismatch n])) ∨
    ((g.st = .idle ∨ g.st = .reserved7) ∧ es = [.error .badStartMarker 1]) ∨
    (g.st = .b4 ∧ es = [.error .badLength 5]) ∨
    (g.st = .shape ∧ es = [.error .unknownShape 1, .error .badStartMarker 1]) := by
  cases h with
  | startFound hst => exact .inl ⟨rfl, by rcases hst with hst | hst <;> simp [hst]⟩
  | shapeSelected hst | code hst | third hst | emptyPayload hst | payloadFollows hst => exact .inl ⟨rfl, by simp [hst]⟩
  | payload hst => exact .inr (.inl ⟨hst, _, _, rfl⟩)
  | commit hst => exact .inr (.inr (.inl ⟨hst, .inl ⟨_, _, _, _, _, rfl⟩⟩))
  | mismatch hst => exact .inr (.inr (.inl ⟨hst, .inr ⟨_, rfl⟩⟩))
  | badStart hst => exact .inr (.inr (.inr (.inl ⟨hst, rfl⟩)))
  | zeroLength hst => exact .inr (.inr (.inr (.inr (.inl ⟨hst, rfl⟩))))
  | shapeUnknown hst => exact .inr (.inr (.inr (.inr (.inr ⟨hst, rfl⟩))))

/-! ### The row a step runs -/

theorem exec_reset (v : Bool) (s : State) : exec (.reset v) s = .next (resetBlock s) := rfl

theorem exec_idleCycle (s : State) : exec .idleCycle s = .next (holdBlock s) := rfl

/-- R150: an edge runs Reset, Idle or Accept. -/
theorem exec_ctl_cases {r v : Bool} {s t : State} (h : exec (decodeKey (.ctl (ctlKey r v))) s = .next t) :
    t = resetBlock s ∨ t = holdBlock s ∨ exec .accept s = .next t := by
  cases r with
  | true =>
    rw [decodeKey, decodeCtl_reset, exec_reset] at h
    exact .inl (Host.Outcome.next.inj h).symm
  | false =>
    cases v with
    | false =>
      rw [decodeKey, decodeCtl_idle, exec_idleCycle] at h
      exact .inr (.inl (Host.Outcome.next.inj h).symm)
    | true =>
      rw [decodeKey, decodeCtl_accept] at h
      exact .inr (.inr h)

/-- R77, R129: the row of the buffer's first two bytes is one turn of the drain loop with Parse's result. -/
theorem exec_prefix (s : State) (b0 b1 : Byte) (tail : List Byte) (h : s.ref.buffer = b0 :: b1 :: tail) :
    exec (decodeKey (.prefix16 (prefixKey b0 b1))) s = .next (takeResult (parse s.ref.buffer) s) := by
  rw [decodeKey, decodePrefix_key, h, parse]
  by_cases h0 : b0 = Config.startMarker
  · rw [if_pos h0, if_neg (not_not.mpr h0), ← h]
    by_cases hFF : b1 = Config.answerMarker
    · rw [if_pos hFF, if_pos hFF]; rfl
    rw [if_neg hFF, if_neg hFF]
    by_cases hFE : b1 = Config.asyncMarker
    · rw [if_pos hFE, if_pos hFE]; rfl
    · rw [if_neg hFE, if_neg hFE]; rfl
  · rw [if_neg h0, if_pos h0]; rfl

theorem step_of_fetch_ok {s s' : State} {i : Instr} (h : fetch s = (.ok i, s')) : step s = exec i s' := by
  rw [step, h]

/-- A call of Parse takes its result, whether the buffer selects a row or is too short for one (R121). -/
theorem step_of_fetch_buffer {s s' : State} (h : fetch s = (decodeBuffer s'.ref.buffer, s')) :
    step s = .next (takeResult (parse s'.ref.buffer) s') := by
  rw [step, h]
  match hb : s'.ref.buffer with
  | [] | [_] => rfl
  | b0 :: b1 :: tail => exact (exec_prefix s' b0 b1 tail hb).trans (by rw [hb])

theorem step_edge (s : State) (p : InPorts) (rest : List Stimulus) (h : s.stimuli = .edge p :: rest) :
    step s = exec (decodeKey (.ctl (ctlKey p.rst p.inValid))) { s with stimuli := rest, inp := p } :=
  step_of_fetch_ok (fetch_edge s p rest h)

theorem step_parseCall (s : State) (rest : List Stimulus) (h : s.stimuli = .parseCall :: rest) :
    step s = .next (takeResult (parse s.ref.buffer) { s with stimuli := rest }) :=
  step_of_fetch_buffer (fetch_parseCall s rest h)

theorem takeStimulus_keeps (s : State) : SameBlock s (takeStimulus s).2 ∧ (takeStimulus s).2.ref = s.ref := by
  unfold takeStimulus
  split <;> exact ⟨⟨rfl, rfl, rfl, rfl⟩, rfl⟩

/-- What any step can do, a free draw included: the stimulus is taken from the environment, and then the block resets, holds or
accepts, or the reference takes a result of Parse. -/
theorem step_cases {s t : State} (h : step s = .next t) :
    ∃ s', SameBlock s s' ∧ s'.ref = s.ref ∧
      (t = resetBlock s' ∨ t = holdBlock s' ∨ exec .accept s' = .next t ∨ t = takeResult (parse s'.ref.buffer) s') := by
  obtain ⟨hblock, href⟩ := takeStimulus_keeps s
  cases hx : (takeStimulus s).1 with
  | edge p =>
    have hfetch : fetch s = (.ok (decodeKey (.ctl (ctlKey p.rst p.inValid))), { (takeStimulus s).2 with inp := p }) := by
      simp only [fetch, hx, selectRow]
    rw [step_of_fetch_ok hfetch] at h
    refine ⟨{ (takeStimulus s).2 with inp := p }, hblock, href, ?_⟩
    rcases exec_ctl_cases h with hreset | hhold | haccept
    · exact .inl hreset
    · exact .inr (.inl hhold)
    · exact .inr (.inr (.inl haccept))
  | parseCall =>
    have hfetch : fetch s = (decodeBuffer (takeStimulus s).2.ref.buffer, (takeStimulus s).2) := by
      simp only [fetch, hx, selectRow]
    rw [step_of_fetch_buffer hfetch] at h
    exact ⟨_, hblock, href, .inr (.inr (.inr (Host.Outcome.next.inj h).symm))⟩

/-- Settles O51: the step is one turn of the drain loop, which writes `ref` only. -/
theorem parseCallsLeaveTheBlock : Obligations.ParseCallsLeaveTheBlock := by
  intro s rest h
  exact ⟨_, step_parseCall s rest h, ⟨rfl, rfl, rfl, rfl⟩, rfl, rfl, rfl⟩

/-! ### Ports after an edge (R22, R173) -/

theorem ports_of_no_event : QuietGroups OutPorts.zero ∧ ExclusiveStrobes OutPorts.zero := by
  simp [QuietGroups, ExclusiveStrobes, OutPorts.zero]

/-- Each of the six event lists of R173 drives its own group of ports and nothing else. -/
theorem StateRule.ports_quiet_exclusive {g g' : Regs} {b : Byte} {es : List Event} (h : StateRule g b g' es) :
    QuietGroups (ports es) ∧ ExclusiveStrobes (ports es) := by
  rcases h.events_form with ⟨rfl, -⟩ | ⟨-, i, b, rfl⟩ | ⟨-, ⟨sh, c, q, L, k, rfl⟩ | ⟨n, rfl⟩⟩ | ⟨-, rfl⟩ | ⟨-, rfl⟩ | ⟨-, rfl⟩
  · exact ports_of_no_event
  all_goals simp [QuietGroups, ExclusiveStrobes, OutPorts.zero]

/-- Settles O26: Reset and Idle write every port 0, and Accept the ports of one of R173's event lists. -/
theorem portsAfterAnEdge : Obligations.PortsAfterAnEdge := by
  intro s t p rest hs h
  rw [step_edge s p rest hs] at h
  rcases exec_ctl_cases h with rfl | rfl | haccept
  · exact ports_of_no_event
  · exact ports_of_no_event
  · obtain ⟨g, es, hrule, rfl⟩ := exec_accept_cases haccept
    exact hrule.ports_quiet_exclusive

/-! ### The offset in the frame (R26) -/

/-- In PAY the index does not wrap, so the offset grows by one into the next payload byte or the checksum byte. -/
theorem frameOffset_after_payload (g : Regs) (a : Byte) (h2 : 2 ≤ g.len.toNat) (hidx : g.idx.toNat < g.len.toNat - 1) :
    frameOffset { g with acc := a, idx := g.idx + 1, st := if isLastPayload g.idx g.len then .chk else .pay } =
      5 + g.idx.toNat + 1 := by
  have hlen := g.len.isLt
  by_cases hlast : isLastPayload g.idx g.len = true
  · have hend := (isLastPayload_iff _ _).mp hlast
    simp only [frameOffset, hlast, if_true]
    omega
  · have hnext : (g.idx + 1).toNat = g.idx.toNat + 1 := by
      exact BitVec.toNat_add_of_lt (by simp; omega)
    simp only [frameOffset, hlast, Bool.false_eq_true, if_false, hnext]
    omega

/-- Settles O28, rule by rule. -/
theorem offsetAdvancesByOneOrReturns : Obligations.OffsetAdvancesByOneOrReturns := by
  intro s t hinv h
  obtain ⟨g, es, hrule, rfl⟩ := exec_accept_cases h
  rw [acceptByte_regs]
  cases hrule with
  | startFound hst => exact .inl (by rcases hst with hst | hst <;> simp [frameOffset, hst])
  | badStart | shapeUnknown | zeroLength | commit | mismatch => exact .inr ⟨rfl, rfl⟩
  | shapeSelected hst | code hst | third hst | payloadFollows hst => exact .inl (by simp [frameOffset, hst])
  | emptyPayload hst hL => exact .inl (by simp [frameOffset, hst, hL])
  | payload hst =>
    obtain ⟨h2, hidx, -⟩ := hinv.pay hst
    refine .inl ((frameOffset_after_payload s.regs _ h2 hidx).trans ?_)
    simp only [frameOffset, hst]

end Sys2Proof.Machine
end

section
/-! PROOFS. The reference parser (41_reference_parser.md): what Parse answers, that a nonzero count is stable under appended bytes
(R128), and that draining in two chunks is draining whole (R130). -/

namespace Sys2Proof.Machine

/-! ### Parse by the first two bytes (R122 to R125) -/

/-- Byte 1 selects a shape (R72, R73). -/
def IsMarker (m : Byte) : Prop := m = Config.answerMarker ∨ m = Config.asyncMarker

theorem parse_badStart (x m : Byte) (t : List Byte) (h : x ≠ Config.startMarker) : parse (x :: m :: t) = badStartResult :=
  if_pos h

theorem parse_unknownShape (m : Byte) (t : List Byte) (h : ¬ IsMarker m) :
    parse (Config.startMarker :: m :: t) = unknownShapeResult := by
  obtain ⟨hFF, hFE⟩ := not_or.mp h
  rw [parse, if_neg (not_not.mpr rfl), if_neg hFF, if_neg hFE]

theorem parse_marker (m : Byte) (t : List Byte) (h : IsMarker m) :
    parse (Config.startMarker :: m :: t) = parsePath (markerShape m) (Config.startMarker :: m :: t) := by
  rcases h with rfl | rfl <;> rfl

/-- Parse waits on two bytes only when they begin a frame. -/
theorem marker_of_parse_wait {x m : Byte} {t : List Byte} (h : (parse (x :: m :: t)).consumed = 0) :
    x = Config.startMarker ∧ IsMarker m := by
  by_cases hx : x = Config.startMarker
  · subst hx
    refine ⟨rfl, ?_⟩
    by_contra hm
    rw [parse_unknownShape m t hm] at h
    exact absurd h (by decide)
  · rw [parse_badStart x m t hx] at h
    exact absurd h (by decide)

/-! ### The frame's body, once its header is there (R124, R126) -/

section Body

variable {sh : Shape} {buf : List Byte} {c d e : Byte}

theorem parseBody_of_zero (hL : frameLengthField sh d e = 0) : parseBody sh buf c d e = ⟨5, none, some .badLength⟩ :=
  if_pos hL

theorem parseBody_of_short (hL : frameLengthField sh d e ≠ 0) (hbuf : buf.length < 5 + (frameLengthField sh d e).toNat) :
    parseBody sh buf c d e = .wait :=
  (if_neg hL).trans (if_pos hbuf)

theorem parseBody_of_complete (hL : frameLengthField sh d e ≠ 0)
    (hbuf : ¬ buf.length < 5 + (frameLengthField sh d e).toNat) :
    parseBody sh buf c d e =
      let L := frameLengthField sh d e
      let chk := buf.getD (4 + L.toNat) 0
      if checksumValid (slice buf 2 (4 + L.toNat)) chk
        then ⟨5 + L.toNat, some (frameRecord sh c d L (slice buf 5 (4 + L.toNat)) chk), none⟩
        else ⟨5 + L.toNat, none, some .checksumMismatch⟩ :=
  (if_neg hL).trans (if_neg hbuf)

theorem parseBody_consumed :
    (parseBody sh buf c d e).consumed =
      if frameLengthField sh d e = 0 then 5
      else if buf.length < 5 + (frameLengthField sh d e).toNat then 0
      else 5 + (frameLengthField sh d e).toNat := by
  split
  · rw [parseBody_of_zero ‹_›]
  split
  · rw [parseBody_of_short ‹_› ‹_›]; rfl
  · rw [parseBody_of_complete ‹_› ‹_›]
    dsimp only
    split <;> rfl

end Body

/-! ### The count of consumed bytes (R127) -/

theorem parsePath_consumed_le (sh : Shape) (b : List Byte) : (parsePath sh b).consumed ≤ b.length := by
  match b with
  | [] | [_] | [_, _] | [_, _, _] | [_, _, _, _] => exact Nat.zero_le _
  | _ :: _ :: c :: d :: e :: p =>
    rw [parsePath, parseBody_consumed]
    split
    · simp
    split <;> omega

theorem parse_consumed_le (b : List Byte) : (parse b).consumed ≤ b.length := by
  match b with
  | [] | [_] => exact Nat.zero_le _
  | x :: m :: t =>
    by_cases hx : x = Config.startMarker
    · subst hx
      by_cases hm : IsMarker m
      · rw [parse_marker m t hm]
        exact parsePath_consumed_le _ _
      · rw [parse_unknownShape m t hm]
        simp [unknownShapeResult]
    · rw [parse_badStart x m t hx]
      simp [badStartResult]

/-! ### Appended bytes change no nonzero count (R128) -/

theorem slice_append (s t : List Byte) (i j : Nat) (h : j ≤ s.length) : slice (s ++ t) i j = slice s i j := by
  rw [slice, slice, List.take_append_of_le_length h]

theorem parseBody_append (sh : Shape) (buf t : List Byte) (c d e : Byte) (h : (parseBody sh buf c d e).consumed ≠ 0) :
    parseBody sh (buf ++ t) c d e = parseBody sh buf c d e := by
  by_cases hL : frameLengthField sh d e = 0
  · rw [parseBody_of_zero hL, parseBody_of_zero hL]
  by_cases hbuf : buf.length < 5 + (frameLengthField sh d e).toNat
  · rw [parseBody_of_short hL hbuf] at h
    exact absurd rfl h
  · have hbuf' : ¬ (buf ++ t).length < 5 + (frameLengthField sh d e).toNat := by simp; omega
    have hbody : 4 + (frameLengthField sh d e).toNat < buf.length := by omega
    rw [parseBody_of_complete hL hbuf, parseBody_of_complete hL hbuf']
    simp only [slice_append buf t _ _ hbody.le, List.getD_append buf t 0 _ hbody]

theorem parsePath_append (sh : Shape) (b t : List Byte) (h : (parsePath sh b).consumed ≠ 0) :
    parsePath sh (b ++ t) = parsePath sh b := by
  match b with
  | [] | [_] | [_, _] | [_, _, _] | [_, _, _, _] => exact absurd rfl h
  | x :: m :: c :: d :: e :: p => exact parseBody_append sh _ t c d e h

theorem parse_append (b t : List Byte) (h : (parse b).consumed ≠ 0) : parse (b ++ t) = parse b := by
  match b with
  | [] | [_] => exact absurd rfl h
  | x :: m :: u =>
    rw [List.cons_append, List.cons_append]
    by_cases hx : x = Config.startMarker
    · subst hx
      by_cases hm : IsMarker m
      · rw [parse_marker m u hm] at h ⊢
        rw [parse_marker m (u ++ t) hm]
        exact parsePath_append _ _ t h
      · rw [parse_unknownShape m u hm, parse_unknownShape m (u ++ t) hm]
    · rw [parse_badStart x m u hx, parse_badStart x m (u ++ t) hx]

/-! ### The drain loop (R129, R130) -/

/-- The induction along the drain loop's calls: Parse waits, or takes bytes and the loop goes on with the rest. -/
theorem drain_induction {P : List Byte → Prop} (wait : ∀ b, (parse b).consumed = 0 → P b)
    (take : ∀ b, (parse b).consumed ≠ 0 → P (b.drop (parse b).consumed) → P b) (b : List Byte) : P b := by
  by_cases h : (parse b).consumed = 0
  · exact wait b h
  · exact take b h (drain_induction wait take (b.drop (parse b).consumed))
termination_by b.length
decreasing_by
  have := parse_consumed_le b
  rw [List.length_drop]
  omega

theorem drainFuel_of_wait (n : Nat) (b : List Byte) (h : (parse b).consumed = 0) : drainFuel n b = ([], b) := by
  cases n with
  | zero => rfl
  | succ n => exact if_pos h

/-- Fuel for every byte is fuel enough. -/
theorem drainFuel_eq_refDrain (b : List Byte) : ∀ n, b.length ≤ n → drainFuel n b = refDrain b := by
  induction b using drain_induction with
  | wait b h => intro n _; rw [refDrain, drainFuel_of_wait n b h, drainFuel_of_wait _ b h]
  | take b h ih =>
    have hle := parse_consumed_le b
    have hdrop : (b.drop (parse b).consumed).length = b.length - (parse b).consumed := List.length_drop
    have drain_turn : ∀ n, b.length ≤ n → drainFuel n b =
        ((parse b).events ++ (refDrain (b.drop (parse b).consumed)).1, (refDrain (b.drop (parse b).consumed)).2) := by
      intro n hn
      obtain ⟨n, rfl⟩ : ∃ k, n = k + 1 := ⟨n - 1, by omega⟩
      rw [drainFuel, if_neg h, ih n (by omega)]
    intro n hn
    rw [refDrain, drain_turn n hn, drain_turn b.length le_rfl]

theorem refDrain_of_wait (b : List Byte) (h : (parse b).consumed = 0) : refDrain b = ([], b) :=
  drainFuel_of_wait _ b h

theorem refDrain_of_take (b : List Byte) (h : (parse b).consumed ≠ 0) :
    refDrain b = ((parse b).events ++ refEvents (b.drop (parse b).consumed), refRem (b.drop (parse b).consumed)) := by
  rw [← drainFuel_eq_refDrain b (b.length + 1) (by omega), drainFuel, if_neg h,
    drainFuel_eq_refDrain _ b.length (by simp)]
  rfl

theorem refRem_of_wait (b : List Byte) (h : (parse b).consumed = 0) : refRem b = b := by
  rw [refRem, refDrain_of_wait b h]

theorem refRem_of_take (b : List Byte) (h : (parse b).consumed ≠ 0) : refRem b = refRem (b.drop (parse b).consumed) := by
  rw [refRem, refDrain_of_take b h]

/-- The loop ends where Parse waits. -/
theorem parse_refRem_consumed (b : List Byte) : (parse (refRem b)).consumed = 0 := by
  induction b using drain_induction with
  | wait b h => rwa [refRem_of_wait b h]
  | take b h ih => rwa [refRem_of_take b h]

/-- R130: draining a stream in two chunks is draining it whole. -/
theorem refDrain_append (a b : List Byte) :
    refDrain (a ++ b) = (refEvents a ++ refEvents (refRem a ++ b), refRem (refRem a ++ b)) := by
  induction a using drain_induction with
  | wait a h => rw [refEvents, refRem, refDrain_of_wait a h]; rfl
  | take a h ih =>
    have hpre := parse_append a b h
    have hdrop : (a ++ b).drop (parse a).consumed = a.drop (parse a).consumed ++ b :=
      List.drop_append_of_le_length (parse_consumed_le a)
    have hev : refEvents a = (parse a).events ++ refEvents (a.drop (parse a).consumed) := by
      rw [refEvents, refDrain_of_take a h]
    rw [refDrain_of_take (a ++ b) (by rwa [hpre]), hpre, hdrop, refRem_of_take a h, hev, List.append_assoc]
    rw [refEvents, refRem, ih]

theorem refRem_append (a b : List Byte) : refRem (a ++ b) = refRem (refRem a ++ b) := by
  rw [refRem, refDrain_append]

end Sys2Proof.Machine
end

section
/-! PROOFS. The position in the stream: the registers stand for the reference's remainder (R171) on every run, and what they then
hold is R34's table. -/

namespace Sys2Proof.Machine

/-! ### The running sum (R103) -/

theorem addMod256_sumMod256 (s : List Byte) (b : Byte) : addMod256 (sumMod256 s) b = sumMod256 (s ++ [b]) := by
  apply BitVec.eq_of_toNat_eq
  rw [addMod256_toNat]
  simp [sumMod256]

theorem addMod256_eq_sumMod256 (b c : Byte) : addMod256 b c = sumMod256 [b, c] := by
  have hb : sumMod256 [b] = b := by simp [sumMod256]
  simpa [hb] using addMod256_sumMod256 [b] c

/-! ### R171's rows from byte 4 on, in the model's words for the header fields -/

theorem abstracts_four_iff (x m c d : Byte) (g : Regs) :
    Abstracts [x, m, c, d] g ↔
      g.st = .b4 ∧ g.shape = markerShape m ∧ g.code = c ∧ g.acc = addMod256 c d ∧
      g.seq = sequenceOf (markerShape m) d ∧ lengthHigh g.len = lengthHighOf (markerShape m) d := by
  cases hm : markerShape m <;> simp [Abstracts, hm, sequenceOf, lengthHighOf]

theorem len_eq_frameLengthField_iff (len : Half) (sh : Shape) (d e : Byte) :
    len = frameLengthField sh d e ↔
      len.toNat = (if sh = .answer then e.toNat else d.toNat * 256 + e.toNat) := by
  rw [← BitVec.toNat_inj]
  cases sh <;> simp [frameLengthField, zext16_toNat, concatBytes_toNat]

theorem abstracts_body_iff (x m c d e : Byte) (p : List Byte) (g : Regs) :
    Abstracts (x :: m :: c :: d :: e :: p) g ↔
      g.shape = markerShape m ∧ g.code = c ∧
      (g.seq = sequenceOf (markerShape m) d ∧ g.len = frameLengthField (markerShape m) d e) ∧
      g.idx.toNat = p.length ∧ g.acc = sumMod256 (c :: d :: e :: p) ∧ p.length + 1 ≤ g.len.toNat ∧
      g.st = if p.length + 1 < g.len.toNat then .pay else .chk := by
  rw [len_eq_frameLengthField_iff]
  cases hm : markerShape m <;> simp [Abstracts, hm, sequenceOf]

/-! ### The forms of the remainder, by `st` -/

/-- How the bytes of a remainder look in each state of the block (R24, R132). -/
def RemainderForm : St → List Byte → Prop
  | .idle, r => r = [] ∨ ∃ x, x ≠ Config.startMarker ∧ r = [x]
  | .shape, r => r = [Config.startMarker]
  | .b2, r => ∃ m, IsMarker m ∧ r = [Config.startMarker, m]
  | .b3, r => ∃ m c, IsMarker m ∧ r = [Config.startMarker, m, c]
  | .b4, r => ∃ m c d, IsMarker m ∧ r = [Config.startMarker, m, c, d]
  | .pay, r | .chk, r => ∃ m c d e p, IsMarker m ∧ r = Config.startMarker :: m :: c :: d :: e :: p
  | .reserved7, _ => False

theorem Abstracts.remainderForm {r : List Byte} {g : Regs} (h : Abstracts r g) (hwait : (parse r).consumed = 0) :
    RemainderForm g.st r := by
  match r with
  | [] =>
    rw [show g.st = .idle from h]
    exact .inl rfl
  | [x] =>
    rw [show g.st = if x = Config.startMarker then .shape else .idle from h]
    split
    · next hx => exact congrArg (fun y => [y]) hx
    · next hx => exact .inr ⟨x, hx, rfl⟩
  | [x, m] =>
    obtain ⟨rfl, hm⟩ := marker_of_parse_wait hwait
    obtain ⟨hst, -⟩ := h
    rw [hst]
    exact ⟨m, hm, rfl⟩
  | [x, m, c] =>
    obtain ⟨rfl, hm⟩ := marker_of_parse_wait hwait
    obtain ⟨hst, -⟩ := h
    rw [hst]
    exact ⟨m, c, hm, rfl⟩
  | [x, m, c, d] =>
    obtain ⟨rfl, hm⟩ := marker_of_parse_wait hwait
    obtain ⟨hst, -⟩ := h
    rw [hst]
    exact ⟨m, c, d, hm, rfl⟩
  | x :: m :: c :: d :: e :: p =>
    obtain ⟨rfl, hm⟩ := marker_of_parse_wait hwait
    obtain ⟨-, -, -, -, -, -, hst⟩ := (abstracts_body_iff ..).mp h
    rw [hst]
    split <;> exact ⟨m, c, d, e, p, hm, rfl⟩

/-- The reserved state stands for no remainder, so a search for the start marker is IDLE's. -/
theorem RemainderForm.search {st : St} {r : List Byte} (h : RemainderForm st r) (hst : st = .idle ∨ st = .reserved7) :
    RemainderForm .idle r := by
  rcases hst with rfl | rfl
  exacts [h, h.elim]

theorem Abstracts.more_of_pay {x m c d e : Byte} {p : List Byte} {g : Regs} (h : Abstracts (x :: m :: c :: d :: e :: p) g)
    (hst : g.st = .pay) : p.length + 1 < g.len.toNat := by
  obtain ⟨-, -, -, -, -, -, hpay⟩ := (abstracts_body_iff ..).mp h
  by_contra hend
  rw [hst, if_neg hend] at hpay
  cases hpay

theorem Abstracts.last_of_chk {x m c d e : Byte} {p : List Byte} {g : Regs} (h : Abstracts (x :: m :: c :: d :: e :: p) g)
    (hst : g.st = .chk) : p.length + 1 = g.len.toNat := by
  obtain ⟨-, -, -, -, -, hle, hchk⟩ := (abstracts_body_iff ..).mp h
  refine le_antisymm hle (not_lt.mp fun hmore => ?_)
  rw [hst, if_pos hmore] at hchk
  cases hchk

/-! ### The remainder after one more byte -/

theorem refRem_nil : refRem [] = [] := rfl

theorem refRem_singleton (b : Byte) : refRem [b] = [b] := refRem_of_wait _ rfl

/-- R122: while the block searches for the start marker, the remainder is the last byte. -/
theorem refRem_of_search (r : List Byte) (b : Byte) (h : RemainderForm .idle r) : refRem (r ++ [b]) = [b] := by
  rcases h with rfl | ⟨x, hx, rfl⟩
  · exact refRem_singleton b
  · have hparse : parse ([x] ++ [b]) = badStartResult := parse_badStart x b [] hx
    rw [refRem_of_take _ (by rw [hparse]; decide), hparse]
    exact refRem_singleton b

/-- R123. -/
theorem refRem_of_unknownShape (b : Byte) (h : ¬ IsMarker b) : refRem [Config.startMarker, b] = [b] := by
  have hparse := parse_unknownShape b [] h
  rw [refRem_of_take _ (by rw [hparse]; decide), hparse]
  exact refRem_singleton b

/-- R124, R125: the frame's header waits. -/
theorem refRem_of_header (m : Byte) (t : List Byte) (hm : IsMarker m) (ht : t.length < 3) :
    refRem (Config.startMarker :: m :: t) = Config.startMarker :: m :: t := by
  apply refRem_of_wait
  rw [parse_marker m t hm]
  match t with
  | [] | [_] | [_, _] => rfl
  | _ :: _ :: _ :: _ => simp at ht; omega

section Body

variable {m : Byte} (c : Byte) {d e : Byte} {p : List Byte}

theorem parse_body_consumed (hm : IsMarker m) :
    (parse (Config.startMarker :: m :: c :: d :: e :: p)).consumed =
      if frameLengthField (markerShape m) d e = 0 then 5
      else if p.length < (frameLengthField (markerShape m) d e).toNat then 0
      else 5 + (frameLengthField (markerShape m) d e).toNat := by
  rw [parse_marker _ _ hm, parsePath, parseBody_consumed]
  simp only [List.length_cons, Nat.add_comm 5, Nat.add_lt_add_iff_right]

/-- R126: BadLength discards the header. -/
theorem refRem_of_zeroLength (hm : IsMarker m) (hL : frameLengthField (markerShape m) d e = 0) :
    refRem [Config.startMarker, m, c, d, e] = [] := by
  have hc := parse_body_consumed c (d := d) (e := e) (p := []) hm
  rw [if_pos hL] at hc
  rw [refRem_of_take _ (by rw [hc]; decide), hc]
  rfl

/-- R124: an incomplete frame waits. -/
theorem refRem_of_partial (hm : IsMarker m) (hp : p.length < (frameLengthField (markerShape m) d e).toNat) :
    refRem (Config.startMarker :: m :: c :: d :: e :: p) = Config.startMarker :: m :: c :: d :: e :: p := by
  have hL : frameLengthField (markerShape m) d e ≠ 0 := fun h0 => by simp [h0] at hp
  exact refRem_of_wait _ (by rw [parse_body_consumed c hm, if_neg hL, if_pos hp])

/-- R124: a complete frame is taken as a whole. -/
theorem refRem_of_complete (hm : IsMarker m) (hne : p ≠ [])
    (hp : p.length = (frameLengthField (markerShape m) d e).toNat) :
    refRem (Config.startMarker :: m :: c :: d :: e :: p) = [] := by
  have hL : frameLengthField (markerShape m) d e ≠ 0 :=
    fun h0 => hne (List.eq_nil_of_length_eq_zero (by rw [hp, h0]; rfl))
  have hc := parse_body_consumed c (d := d) (e := e) (p := p) hm
  rw [if_neg hL, if_neg (by omega), ← hp] at hc
  rw [refRem_of_take _ (by rw [hc]; omega), hc, List.drop_eq_nil_of_le (by simp; omega)]
  rfl

end Body

/-! ### Each state rule keeps the position (R171) -/

theorem newLength_of_abstracts {x m c d : Byte} {g : Regs} (h : Abstracts [x, m, c, d] g) (b : Byte) :
    newLength g b = frameLengthField (markerShape m) d b := by
  obtain ⟨-, hshape, -, -, -, hhigh⟩ := (abstracts_four_iff ..).mp h
  rw [newLength, hshape, hhigh]
  cases markerShape m <;> rfl

/-- B3's byte, of either shape (R157). -/
theorem abstracts_of_third {x m c : Byte} {g : Regs} (h : Abstracts [x, m, c] g) (b : Byte) :
    Abstracts [x, m, c, b]
      { g with
        seq := sequenceOf g.shape b
        len := setLengthHigh g.len (lengthHighOf g.shape b)
        acc := addMod256 g.acc b
        st := .b4 } := by
  obtain ⟨-, hshape, hcode, hacc⟩ := h
  have hhigh (v : Byte) : lengthHigh (setLengthHigh g.len v) = v := by
    apply BitVec.eq_of_toNat_eq
    rw [lengthHigh_toNat, setLengthHigh_toNat]
    omega
  exact (abstracts_four_iff ..).mpr
    ⟨rfl, hshape, hcode, congrArg (addMod256 · b) hacc, by rw [hshape], by rw [hhigh, hshape]⟩

/-- B4's byte with a nonzero length (R158). -/
theorem abstracts_of_fourth {x m c d : Byte} {g : Regs} (h : Abstracts [x, m, c, d] g) (b : Byte) (st : St)
    (h1 : 1 ≤ (newLength g b).toNat) (hst : st = if 1 < (newLength g b).toNat then .pay else .chk) :
    Abstracts [x, m, c, d, b] { g with len := newLength g b, acc := addMod256 g.acc b, idx := 0, st := st } := by
  obtain ⟨-, hshape, hcode, hacc, hseq, -⟩ := (abstracts_four_iff ..).mp h
  have hsum : addMod256 g.acc b = sumMod256 [c, d, b] := by
    rw [hacc, addMod256_eq_sumMod256 c d, addMod256_sumMod256]
    rfl
  exact (abstracts_body_iff ..).mpr ⟨hshape, hcode, ⟨hseq, newLength_of_abstracts h b⟩, rfl, hsum, h1, hst⟩

theorem position_of_fourth {m c d : Byte} {g : Regs} (h : Abstracts [Config.startMarker, m, c, d] g) (hm : IsMarker m)
    (b : Byte) (st : St) (h1 : 1 ≤ (newLength g b).toNat) (hst : st = if 1 < (newLength g b).toNat then .pay else .chk) :
    Abstracts (refRem ([Config.startMarker, m, c, d] ++ [b]))
      { g with len := newLength g b, acc := addMod256 g.acc b, idx := 0, st := st } := by
  have hpartial : ([] : List Byte).length < (frameLengthField (markerShape m) d b).toNat := by
    rwa [← newLength_of_abstracts h]
  simp only [List.cons_append, List.nil_append, refRem_of_partial c hm hpartial]
  exact abstracts_of_fourth h b st h1 hst

/-- A payload byte (R159). -/
theorem abstracts_of_payload {x m c d e : Byte} {p : List Byte} {g : Regs}
    (h : Abstracts (x :: m :: c :: d :: e :: p) g) (hmore : p.length + 1 < g.len.toNat) (b : Byte) :
    Abstracts (x :: m :: c :: d :: e :: (p ++ [b]))
      { g with
        acc := addMod256 g.acc b
        idx := g.idx + 1
        st := if isLastPayload g.idx g.len then .chk else .pay } := by
  obtain ⟨hshape, hcode, hfields, hidx, hacc, -, -⟩ := (abstracts_body_iff ..).mp h
  have hlen := g.len.isLt
  have hnext : (g.idx + 1).toNat = p.length + 1 := by
    rw [BitVec.toNat_add_of_lt (by simp; omega), hidx]; rfl
  have hsum : addMod256 g.acc b = sumMod256 (c :: d :: e :: (p ++ [b])) := by
    rw [hacc, addMod256_sumMod256]; rfl
  have hst : (if isLastPayload g.idx g.len = true then St.chk else .pay) =
      if (p ++ [b]).length + 1 < g.len.toNat then .pay else .chk := by
    rw [List.length_append, List.length_singleton]
    by_cases hlast : p.length + 2 = g.len.toNat
    · rw [if_pos ((isLastPayload_iff _ _).mpr (by omega)), if_neg (by omega)]
    · rw [if_neg (mt (isLastPayload_iff _ _).mp (by omega)), if_pos (by omega)]
  exact (abstracts_body_iff ..).mpr
    ⟨hshape, hcode, hfields, by rw [hnext]; simp, hsum, by simp; omega, hst⟩

theorem position_of_payload {m c d e : Byte} {p : List Byte} {g : Regs}
    (h : Abstracts (Config.startMarker :: m :: c :: d :: e :: p) g) (hm : IsMarker m)
    (hmore : p.length + 1 < g.len.toNat) (b : Byte) :
    Abstracts (refRem (Config.startMarker :: m :: c :: d :: e :: p ++ [b]))
      { g with
        acc := addMod256 g.acc b
        idx := g.idx + 1
        st := if isLastPayload g.idx g.len then .chk else .pay } := by
  obtain ⟨-, -, ⟨-, hL⟩, -⟩ := (abstracts_body_iff ..).mp h
  have hpartial : (p ++ [b]).length < (frameLengthField (markerShape m) d e).toNat := by
    rw [← hL]; simpa using hmore
  simp only [List.cons_append, refRem_of_partial c hm hpartial]
  exact abstracts_of_payload h hmore b

/-- R171: a state rule takes the registers from standing for the remainder to standing for the next remainder. -/
theorem StateRule.keeps_position {r : List Byte} {g g' : Regs} {b : Byte} {es : List Event} (h : Abstracts r g)
    (hwait : (parse r).consumed = 0) (hrule : StateRule g b g' es) : Abstracts (refRem (r ++ [b])) g' := by
  have hform := h.remainderForm hwait
  cases hrule with
  | startFound hst hb =>
    rw [refRem_of_search r b (hform.search hst)]
    exact (if_pos hb).symm
  | badStart hst hb =>
    rw [refRem_of_search r b (hform.search hst)]
    exact (if_neg hb).symm
  | shapeSelected hst hb =>
    rw [hst] at hform
    obtain rfl := hform
    rw [List.singleton_append, refRem_of_header b [] hb (by decide)]
    exact ⟨rfl, rfl⟩
  | shapeUnknown hst hFF hFE =>
    rw [hst] at hform
    obtain rfl := hform
    rw [List.singleton_append, refRem_of_unknownShape b (not_or.mpr ⟨hFF, hFE⟩)]
    exact (if_neg hFF).symm
  | code hst =>
    rw [hst] at hform
    obtain ⟨m, hm, rfl⟩ := hform
    obtain ⟨-, hshape⟩ := h
    rw [List.cons_append, List.cons_append, refRem_of_header m _ hm (by simp)]
    exact ⟨rfl, hshape, rfl, rfl⟩
  | third hst =>
    rw [hst] at hform
    obtain ⟨m, c, hm, rfl⟩ := hform
    rw [List.cons_append, List.cons_append, refRem_of_header m _ hm (by simp)]
    exact abstracts_of_third h b
  | zeroLength hst hL =>
    rw [hst] at hform
    obtain ⟨m, c, d, hm, rfl⟩ := hform
    rw [newLength_of_abstracts h] at hL
    simp only [List.cons_append, List.nil_append, refRem_of_zeroLength c hm hL]
    rfl
  | emptyPayload hst hL =>
    rw [hst] at hform
    obtain ⟨m, c, d, hm, rfl⟩ := hform
    have h1 : (newLength g b).toNat = 1 := by rw [hL]; rfl
    exact position_of_fourth h hm b _ h1.ge (if_neg h1.not_gt).symm
  | payloadFollows hst h0 h1 =>
    rw [hst] at hform
    obtain ⟨m, c, d, hm, rfl⟩ := hform
    have h2 : 1 < (newLength g b).toNat := by
      rw [ne_eq, ← BitVec.toNat_inj] at h0 h1
      exact Nat.one_lt_iff_ne_zero_and_ne_one.mpr ⟨h0, h1⟩
    exact position_of_fourth h hm b _ h2.le (if_pos h2).symm
  | payload hst =>
    rw [hst] at hform
    obtain ⟨m, c, d, e, p, hm, rfl⟩ := hform
    exact position_of_payload h hm (h.more_of_pay hst) b
  | commit hst | mismatch hst =>
    rw [hst] at hform
    obtain ⟨m, c, d, e, p, hm, rfl⟩ := hform
    obtain ⟨-, -, ⟨-, hL⟩, -⟩ := (abstracts_body_iff ..).mp h
    have hlast := h.last_of_chk hst
    rw [hL] at hlast
    have hcomplete : refRem (Config.startMarker :: m :: c :: d :: e :: (p ++ [b])) = [] :=
      refRem_of_complete c hm (by simp) (by simpa using hlast)
    simp only [List.cons_append, hcomplete]
    rfl

/-! ### Every step of a run from reset keeps the position -/

theorem position_of_step {s t : State} (h : Abstracts (refRem s.stream) s.regs) (hstep : step s = .next t) :
    Abstracts (refRem t.stream) t.regs := by
  obtain ⟨s', ⟨hregs, -, hstream, -⟩, -, hcases⟩ := step_cases hstep
  rw [← hregs, ← hstream] at h
  rcases hcases with rfl | rfl | haccept | rfl
  · exact rfl
  · exact h
  · obtain ⟨g, es, hrule, rfl⟩ := exec_accept_cases haccept
    rw [acceptByte_stream, acceptByte_regs, refRem_append]
    exact hrule.keeps_position h (parse_refRem_consumed _)
  · exact h

theorem Reachable.position {s : State} (h : Reachable s) : Abstracts (refRem s.stream) s.regs := by
  induction h with
  | reset xs => exact rfl
  | step _ hstep ih => exact position_of_step ih hstep

/-! ### R34's table -/

theorem slice_eq_drop (s : List Byte) (i j : Nat) (h : s.length ≤ j) : slice s i j = s.drop i := by
  rw [slice, List.take_of_length_le h]

/-- R34: the length of an Answer frame is one byte. -/
theorem answer_length_le {x m c d e : Byte} {p : List Byte} {g : Regs} (h : Abstracts (x :: m :: c :: d :: e :: p) g)
    (hshape : g.shape = .answer) : g.len.toNat ≤ 255 := by
  obtain ⟨hm, -, ⟨-, hL⟩, -⟩ := (abstracts_body_iff ..).mp h
  rw [hL, ← hm, hshape, frameLengthField, zext16_toNat]
  exact Nat.le_of_lt_succ e.isLt

theorem frameInvariants_of_position {s : State} (h : Abstracts (refRem s.stream) s.regs) : FrameInvariants s := by
  have hform := h.remainderForm (parse_refRem_consumed _)
  constructor
  case b3 =>
    intro hst
    rw [hst] at hform
    obtain ⟨m, c, -, hr⟩ := hform
    rw [hr] at h
    obtain ⟨-, -, hcode, hacc⟩ := h
    rw [hacc, hcode]
  case b4 =>
    intro hst
    rw [hst] at hform
    obtain ⟨m, c, d, -, hr⟩ := hform
    rw [hr] at h ⊢
    obtain ⟨-, -, -, hacc, -⟩ := h
    exact hacc.trans (addMod256_eq_sumMod256 c d)
  case pay =>
    intro hst
    rw [hst] at hform
    obtain ⟨m, c, d, e, p, -, hr⟩ := hform
    rw [hr] at h ⊢
    obtain ⟨-, -, -, hidx, hacc, -⟩ := (abstracts_body_iff ..).mp h
    have hmore := h.more_of_pay hst
    refine ⟨by omega, by omega, ?_⟩
    rw [slice_eq_drop _ _ _ (by simp; omega)]
    exact hacc
  case chk =>
    intro hst
    rw [hst] at hform
    obtain ⟨m, c, d, e, p, -, hr⟩ := hform
    rw [hr] at h ⊢
    obtain ⟨-, -, -, hidx, hacc, -⟩ := (abstracts_body_iff ..).mp h
    have hlast := h.last_of_chk hst
    refine ⟨by omega, by omega, ?_⟩
    rw [slice_eq_drop _ _ _ (by simp; omega)]
    exact hacc
  case answer =>
    intro hshape hst
    have hbody : RemainderForm .pay (refRem s.stream) := by
      rcases hst with hst | hst <;> rw [hst] at hform <;> exact hform
    obtain ⟨m, c, d, e, p, -, hr⟩ := hbody
    rw [hr] at h
    exact answer_length_le h hshape
  case notReserved =>
    intro hst
    rw [hst] at hform
    exact hform.elim

/-- Settles O53: the agreement's first clause is the position, from which R34's table is read. -/
theorem agreementGivesFrameInvariants : Obligations.AgreementGivesFrameInvariants :=
  fun _ hinv => frameInvariants_of_position hinv.position

/-- Settles O48: the position holds at reset and every step keeps it. -/
theorem frameInvariantsOnEveryRun : Obligations.FrameInvariantsOnEveryRun :=
  fun _ hreach => frameInvariants_of_position hreach.position

end Sys2Proof.Machine
end

section
/-! PROOFS. The events of an Accept step and its output ports (42_fsm_operations.md R172, R173): a reader of the ports takes back
exactly the events that were written to them. -/

namespace Sys2Proof.Machine

/-! ### The ports read back, one lemma per event list of R173 -/

theorem observe_ports_payloadByte (i : Half) (b : Byte) :
    observe (ports [.payloadByte i b]) = [.payloadByte i b] := rfl

theorem observe_ports_frame (sh : Shape) (c q : Byte) (L : Half) (k : Byte) :
    observe (ports [.frame sh c q L k]) = [.frame sh c q L k] := by
  simp [observe, OutPorts.zero, Shape.ofBit_bit]

theorem observe_ports_badStart : observe (ports [.error .badStartMarker 1]) = [.error .badStartMarker 1] := rfl

theorem observe_ports_unknownShape :
    observe (ports [.error .unknownShape 1, .error .badStartMarker 1]) =
      [.error .unknownShape 1, .error .badStartMarker 1] := rfl

theorem observe_ports_badLength : observe (ports [.error .badLength 5]) = [.error .badLength 5] := rfl

/-- `err_len` has 17 bits, so that it holds `5 + len` without loss (R160). -/
theorem observe_ports_checksumMismatch (L : Half) :
    observe (ports [.error .checksumMismatch (5 + L.toNat)]) = [.error .checksumMismatch (5 + L.toNat)] := by
  have hfits : (BitVec.ofNat 17 (5 + L.toNat)).toNat = 5 + L.toNat := by
    have hL := L.isLt
    rw [BitVec.toNat_ofNat, Nat.mod_eq_of_lt (by omega)]
  simp [observe, OutPorts.zero, hfits]

/-- No event of a state rule is lost, changed or reordered on the ports. -/
theorem StateRule.observe_ports {g g' : Regs} {b : Byte} {es : List Event} (h : StateRule g b g' es) :
    observe (ports es) = es := by
  cases h with
  | startFound | shapeSelected | code | third | emptyPayload | payloadFollows => exact observe_zero
  | badStart => exact observe_ports_badStart
  | shapeUnknown => exact observe_ports_unknownShape
  | zeroLength => exact observe_ports_badLength
  | payload => exact observe_ports_payloadByte ..
  | commit => exact observe_ports_frame ..
  | mismatch => exact observe_ports_checksumMismatch _

/-- Settles O24: the step is an acceptance with the events of its state rule, and these are what its ports show. -/
theorem acceptTakesTheByteOnce : Obligations.AcceptTakesTheByteOnce := by
  intro s
  obtain ⟨g, es, hrule, hexec⟩ := exec_accept_follows_rule s
  refine ⟨_, hexec, ?_⟩
  rw [acceptByte_out, hrule.observe_ports]
  exact acceptByte_accepted ..

end Sys2Proof.Machine
end

section
/-! PROOFS. The keys of the opcode table (30_encoding.md R77, R81; 42_fsm_operations.md R150): decoder and encoder are inverse on
the well-formed rows, and the decoder follows the table's masks and priorities. -/

namespace Sys2Proof

/-! ### Every key is built from its fields -/

theorem exists_stByteKey {k : Key} (h : k.format = .stByte) : ∃ st b, k = .stByte (stByteKey st b) := by
  cases k with
  | stByte k =>
    refine ⟨k.extractLsb' 8 3, k.extractLsb' 0 8, congrArg Key.stByte (BitVec.eq_of_toNat_eq ?_)⟩
    rw [stByteKey_toNat, BitVec.extractLsb'_toNat, BitVec.extractLsb'_toNat, Nat.shiftRight_eq_div_pow, Nat.shiftRight_zero]
    omega
  | ctl | prefix16 => cases h

theorem exists_prefixKey {k : Key} (h : k.format = .prefix16) : ∃ b0 b1, k = .prefix16 (prefixKey b0 b1) := by
  cases k with
  | prefix16 k =>
    refine ⟨k.extractLsb' 8 8, k.extractLsb' 0 8, congrArg Key.prefix16 (BitVec.eq_of_toNat_eq ?_)⟩
    rw [prefixKey_toNat, BitVec.extractLsb'_toNat, BitVec.extractLsb'_toNat, Nat.shiftRight_eq_div_pow, Nat.shiftRight_zero]
    omega
  | stByte | ctl => cases h

theorem exists_ctlKey {k : Key} (h : k.format = .ctl) : ∃ r v, k = .ctl (ctlKey r v) := by
  have hbits : ∀ k : BitVec 2, ∃ r v, k = ctlKey r v := by decide
  cases k with
  | ctl k =>
    obtain ⟨r, v, rfl⟩ := hbits k
    exact ⟨r, v, rfl⟩
  | stByte | prefix16 => cases h

/-! ### Decoding and encoding are inverse -/

/-- Settles O1: one lemma of the family `Laws.RoundTrip` per row. -/
theorem rowsDecodeAfterEncode : Obligations.RowsDecodeAfterEncode := by
  intro i
  cases i with
  | idleSop => exact Laws.RoundTrip.idleSop
  | idleBadStart b => exact Laws.RoundTrip.idleBadStart b
  | shapeAnswer => exact Laws.RoundTrip.shapeAnswer
  | shapeAsync => exact Laws.RoundTrip.shapeAsync
  | shapeUnknown b => exact Laws.RoundTrip.shapeUnknown b
  | b2Code b => exact Laws.RoundTrip.b2Code b
  | b3SeqLenhi b => exact Laws.RoundTrip.b3SeqLenhi b
  | b4Len b => exact Laws.RoundTrip.b4Len b
  | payByte b => exact Laws.RoundTrip.payByte b
  | chkByte b => exact Laws.RoundTrip.chkByte b
  | st7Reserved b => exact Laws.RoundTrip.st7Reserved b
  | reset v => exact Laws.RoundTrip.reset v
  | idleCycle => exact Laws.RoundTrip.idleCycle
  | accept => exact Laws.RoundTrip.accept
  | refAnswer => exact Laws.RoundTrip.refAnswer
  | refAsync => exact Laws.RoundTrip.refAsync
  | refUnknownShape b1 => exact Laws.RoundTrip.refUnknownShape b1
  | refBadStart b0 b1 => exact Laws.RoundTrip.refBadStart b0 b1

/-- A row is well-formed and has the key `k`. -/
def Instr.IsRowOf (i : Instr) (k : Key) : Prop := i.wf = true ∧ encode i = k

theorem decodeStByte_idle (b : Byte) :
    decodeStByte (stByteKey 0 b) = if b = Config.startMarker then .idleSop else .idleBadStart b := by
  simp [decodeStByte]

theorem decodeStByte_shape (b : Byte) :
    decodeStByte (stByteKey 1 b) =
      if b = Config.answerMarker then .shapeAnswer
      else if b = Config.asyncMarker then .shapeAsync
      else .shapeUnknown b := by
  simp [decodeStByte]

theorem decodeStByte_isRow (st : BitVec 3) (b : Byte) :
    (decodeStByte (stByteKey st b)).IsRowOf (.stByte (stByteKey st b)) := by
  rw [← Machine.St.bits_ofBits st]
  cases Machine.St.ofBits st with
  | idle =>
    change (decodeStByte (stByteKey 0 b)).IsRowOf _
    rw [decodeStByte_idle]
    split_ifs with hFF
    · exact ⟨rfl, by rw [hFF]; rfl⟩
    · exact ⟨bne_iff_ne.mpr hFF, rfl⟩
  | shape =>
    change (decodeStByte (stByteKey 1 b)).IsRowOf _
    rw [decodeStByte_shape]
    split_ifs with hFF hFE
    · exact ⟨rfl, by rw [hFF]; rfl⟩
    · exact ⟨rfl, by rw [hFE]; rfl⟩
    · exact ⟨by simp [Instr.wf, hFF, hFE], rfl⟩
  | b2 | b3 | b4 | pay | chk | reserved7 =>
    simp [Machine.St.bits, decodeStByte, Instr.IsRowOf, Instr.wf, encode]

theorem decodeCtl_isRow (r v : Bool) : (decodeCtl (ctlKey r v)).IsRowOf (.ctl (ctlKey r v)) := by
  cases r with
  | false => cases v <;> exact ⟨rfl, rfl⟩
  | true => rw [decodeCtl_reset]; exact ⟨rfl, rfl⟩

theorem decodePrefix_isRow (b0 b1 : Byte) :
    (decodePrefix (prefixKey b0 b1)).IsRowOf (.prefix16 (prefixKey b0 b1)) := by
  rw [decodePrefix_key]
  split_ifs with h0 hFF hFE
  · exact ⟨rfl, by rw [h0, hFF]; rfl⟩
  · exact ⟨rfl, by rw [h0, hFE]; rfl⟩
  · exact ⟨by simp [Instr.wf, hFF, hFE], by rw [h0]; rfl⟩
  · exact ⟨bne_iff_ne.mpr h0, rfl⟩

/-- Settles O2, format by format, on keys built from their fields. -/
theorem everyKeyIsOneRow : Obligations.EveryKeyIsOneRow := by
  intro k
  cases hformat : k.format with
  | stByte =>
    obtain ⟨st, b, rfl⟩ := exists_stByteKey hformat
    exact decodeStByte_isRow st b
  | ctl =>
    obtain ⟨r, v, rfl⟩ := exists_ctlKey hformat
    exact decodeCtl_isRow r v
  | prefix16 =>
    obtain ⟨b0, b1, rfl⟩ := exists_prefixKey hformat
    exact decodePrefix_isRow b0 b1

/-- Settles O4, number by number. -/
theorem knownKeysDecode : Obligations.KnownKeysDecode := by
  unfold Obligations.KnownKeysDecode
  decide

/-! ### The table's masks -/

theorem covers_iff (f : Format) (n mask p : Nat) (k : Key) :
    (TableRow.mk f n mask p).covers k = true ↔ k.format = f ∧ k.toNat &&& mask = n := by
  simp [TableRow.covers]

/-- The width of a format's keys in bits (R81). -/
def Format.width : Format → Nat
  | .stByte => 11
  | .ctl => 2
  | .prefix16 => 16

theorem Key.toNat_lt (k : Key) : k.toNat < 2 ^ k.format.width := by
  cases k <;> exact BitVec.isLt _

theorem Key.eq_of_toNat_eq {k k' : Key} (hformat : k.format = k'.format) (h : k.toNat = k'.toNat) : k = k' := by
  cases k with
  | stByte k =>
    cases k' with
    | stByte k' => exact congrArg Key.stByte (BitVec.eq_of_toNat_eq h)
    | ctl | prefix16 => cases hformat
  | ctl k =>
    cases k' with
    | ctl k' => exact congrArg Key.ctl (BitVec.eq_of_toNat_eq h)
    | stByte | prefix16 => cases hformat
  | prefix16 k =>
    cases k' with
    | prefix16 k' => exact congrArg Key.prefix16 (BitVec.eq_of_toNat_eq h)
    | stByte | ctl => cases hformat

/-- A row whose mask has every bit of its format covers one key. -/
theorem covers_exact_iff (key : Key) (p : Nat) (k : Key) :
    (TableRow.mk key.format key.toNat (2 ^ key.format.width - 1) p).covers k = true ↔ k = key := by
  rw [covers_iff]
  constructor
  · rintro ⟨hformat, hbits⟩
    rw [← hformat, Nat.and_two_pow_sub_one_of_lt_two_pow k.toNat_lt] at hbits
    exact Key.eq_of_toNat_eq hformat hbits
  · rintro rfl
    exact ⟨rfl, Nat.and_two_pow_sub_one_of_lt_two_pow k.toNat_lt⟩

/-- A mask of the `w` bits above the low byte reads the field there. -/
theorem and_upper_mask {w : Nat} (hi : BitVec w) (lo : Byte) :
    (hi.toNat * 256 + lo.toNat) &&& ((2 ^ w - 1) * 256) = hi.toNat * 256 := by
  have hlo := lo.isLt
  have hdiv : ((hi.toNat * 256 + lo.toNat) &&& ((2 ^ w - 1) * 256)) / 2 ^ 8 = hi.toNat := by
    rw [Nat.and_div_two_pow, show (hi.toNat * 256 + lo.toNat) / 2 ^ 8 = hi.toNat by omega,
      Nat.mul_div_cancel _ (by decide), Nat.and_two_pow_sub_one_of_lt_two_pow hi.isLt]
  have hmod : ((hi.toNat * 256 + lo.toNat) &&& ((2 ^ w - 1) * 256)) % 2 ^ 8 = 0 := by
    rw [Nat.and_mod_two_pow, Nat.mul_mod_left, Nat.and_zero]
  omega

/-- A row whose mask has the bits of `st` covers the keys of that state. -/
theorem covers_state_iff (st : BitVec 3) (p : Nat) (k : Key) :
    (TableRow.mk .stByte (st.toNat * 256) 0x700 p).covers k = true ↔ ∃ b, k = .stByte (stByteKey st b) := by
  have hmask (st : BitVec 3) (b : Byte) : (stByteKey st b).toNat &&& 0x700 = st.toNat * 256 := by
    rw [stByteKey_toNat]
    exact and_upper_mask st b
  rw [covers_iff]
  constructor
  · rintro ⟨hformat, hbits⟩
    obtain ⟨st', b, rfl⟩ := exists_stByteKey hformat
    rw [Key.toNat, hmask] at hbits
    exact ⟨b, by rw [BitVec.eq_of_toNat_eq (Nat.mul_right_cancel (by decide) hbits)]⟩
  · rintro ⟨b, rfl⟩
    exact ⟨rfl, hmask st b⟩

/-- A row whose mask has the bits of byte 0 covers the buffers that begin with that byte. -/
theorem covers_first_iff (b0 : Byte) (p : Nat) (k : Key) :
    (TableRow.mk .prefix16 (b0.toNat * 256) 0xFF00 p).covers k = true ↔ ∃ b1, k = .prefix16 (prefixKey b0 b1) := by
  have hmask (b0 b1 : Byte) : (prefixKey b0 b1).toNat &&& 0xFF00 = b0.toNat * 256 := by
    rw [prefixKey_toNat]
    exact and_upper_mask b0 b1
  rw [covers_iff]
  constructor
  · rintro ⟨hformat, hbits⟩
    obtain ⟨b0', b1, rfl⟩ := exists_prefixKey hformat
    rw [Key.toNat, hmask] at hbits
    exact ⟨b1, by rw [BitVec.eq_of_toNat_eq (Nat.mul_right_cancel (by decide) hbits)]⟩
  · rintro ⟨b1, rfl⟩
    exact ⟨rfl, hmask b0 b1⟩

theorem covers_anyPrefix_iff (p : Nat) (k : Key) :
    (TableRow.mk .prefix16 0 0 p).covers k = true ↔ ∃ b0 b1, k = .prefix16 (prefixKey b0 b1) := by
  rw [covers_iff, Nat.and_zero]
  constructor
  · rintro ⟨hformat, -⟩
    exact exists_prefixKey hformat
  · rintro ⟨b0, b1, rfl⟩
    exact ⟨rfl, rfl⟩

theorem covers_reset_iff (p : Nat) (k : Key) :
    (TableRow.mk .ctl 0b10 0b10 p).covers k = true ↔ ∃ v, k = .ctl (ctlKey true v) := by
  rw [covers_iff]
  constructor
  · rintro ⟨hformat, hbits⟩
    obtain ⟨r, v, rfl⟩ := exists_ctlKey hformat
    cases r with
    | true => exact ⟨v, rfl⟩
    | false => cases v <;> cases hbits
  · rintro ⟨v, rfl⟩
    cases v <;> exact ⟨rfl, rfl⟩

/-! ### The table's priorities -/

/-- A row of the table covers the keys of its constructor, with well-formed operands or not. -/
theorem covers_encode (i : Instr) : i.tableRow.covers (encode i) = true := by
  cases i with
  | idleSop | shapeAnswer | shapeAsync | idleCycle | accept | refAnswer | refAsync => exact (covers_exact_iff _ 1 _).mpr rfl
  | idleBadStart b => exact (covers_state_iff 0 2 _).mpr ⟨b, rfl⟩
  | shapeUnknown b => exact (covers_state_iff 1 2 _).mpr ⟨b, rfl⟩
  | b2Code b => exact (covers_state_iff 2 1 _).mpr ⟨b, rfl⟩
  | b3SeqLenhi b => exact (covers_state_iff 3 1 _).mpr ⟨b, rfl⟩
  | b4Len b => exact (covers_state_iff 4 1 _).mpr ⟨b, rfl⟩
  | payByte b => exact (covers_state_iff 5 1 _).mpr ⟨b, rfl⟩
  | chkByte b => exact (covers_state_iff 6 1 _).mpr ⟨b, rfl⟩
  | st7Reserved b => exact (covers_state_iff 7 1 _).mpr ⟨b, rfl⟩
  | reset v => exact (covers_reset_iff 1 _).mpr ⟨v, rfl⟩
  | refUnknownShape b1 => exact (covers_first_iff 0xFF 3 _).mpr ⟨b1, rfl⟩
  | refBadStart b0 b1 => exact (covers_anyPrefix_iff 4 _).mpr ⟨b0, b1, rfl⟩

/-- A row of the table covers no other keys than those of its constructor. -/
theorem exists_encode_of_covers {i : Instr} {k : Key} (h : i.tableRow.covers k = true) :
    ∃ j : Instr, j.tableRow = i.tableRow ∧ encode j = k := by
  cases i with
  | idleSop => exact ⟨.idleSop, rfl, ((covers_exact_iff (encode .idleSop) 1 k).mp h).symm⟩
  | shapeAnswer => exact ⟨.shapeAnswer, rfl, ((covers_exact_iff (encode .shapeAnswer) 1 k).mp h).symm⟩
  | shapeAsync => exact ⟨.shapeAsync, rfl, ((covers_exact_iff (encode .shapeAsync) 1 k).mp h).symm⟩
  | idleCycle => exact ⟨.idleCycle, rfl, ((covers_exact_iff (encode .idleCycle) 1 k).mp h).symm⟩
  | accept => exact ⟨.accept, rfl, ((covers_exact_iff (encode .accept) 1 k).mp h).symm⟩
  | refAnswer => exact ⟨.refAnswer, rfl, ((covers_exact_iff (encode .refAnswer) 1 k).mp h).symm⟩
  | refAsync => exact ⟨.refAsync, rfl, ((covers_exact_iff (encode .refAsync) 2 k).mp h).symm⟩
  | idleBadStart =>
    obtain ⟨b, rfl⟩ := (covers_state_iff 0 2 k).mp h
    exact ⟨.idleBadStart b, rfl, rfl⟩
  | shapeUnknown =>
    obtain ⟨b, rfl⟩ := (covers_state_iff 1 2 k).mp h
    exact ⟨.shapeUnknown b, rfl, rfl⟩
  | b2Code =>
    obtain ⟨b, rfl⟩ := (covers_state_iff 2 1 k).mp h
    exact ⟨.b2Code b, rfl, rfl⟩
  | b3SeqLenhi =>
    obtain ⟨b, rfl⟩ := (covers_state_iff 3 1 k).mp h
    exact ⟨.b3SeqLenhi b, rfl, rfl⟩
  | b4Len =>
    obtain ⟨b, rfl⟩ := (covers_state_iff 4 1 k).mp h
    exact ⟨.b4Len b, rfl, rfl⟩
  | payByte =>
    obtain ⟨b, rfl⟩ := (covers_state_iff 5 1 k).mp h
    exact ⟨.payByte b, rfl, rfl⟩
  | chkByte =>
    obtain ⟨b, rfl⟩ := (covers_state_iff 6 1 k).mp h
    exact ⟨.chkByte b, rfl, rfl⟩
  | st7Reserved =>
    obtain ⟨b, rfl⟩ := (covers_state_iff 7 1 k).mp h
    exact ⟨.st7Reserved b, rfl, rfl⟩
  | reset =>
    obtain ⟨v, rfl⟩ := (covers_reset_iff 1 k).mp h
    exact ⟨.reset v, rfl, rfl⟩
  | refUnknownShape =>
    obtain ⟨b1, rfl⟩ := (covers_first_iff 0xFF 3 k).mp h
    exact ⟨.refUnknownShape b1, rfl, rfl⟩
  | refBadStart =>
    obtain ⟨b0, b1, rfl⟩ := (covers_anyPrefix_iff 4 k).mp h
    exact ⟨.refBadStart b0 b1, rfl, rfl⟩

/-- What makes an operand ill-formed is a row above it in the table: the key selects that row. -/
theorem priority_lt_of_not_wf {i : Instr} (h : i.wf = false) :
    (decodeKey (encode i)).tableRow.priority < i.tableRow.priority := by
  cases i with
  | idleBadStart b =>
    obtain rfl : b = Config.startMarker := by simpa [Instr.wf] using h
    decide
  | shapeUnknown b =>
    have hb : b = Config.answerMarker ∨ b = Config.asyncMarker := by
      simpa [Instr.wf, Decidable.imp_iff_not_or] using h
    rcases hb with rfl | rfl <;> decide
  | refUnknownShape b1 =>
    have hb : b1 = Config.answerMarker ∨ b1 = Config.asyncMarker := by
      simpa [Instr.wf, Decidable.imp_iff_not_or] using h
    rcases hb with rfl | rfl <;> decide
  | refBadStart b0 b1 =>
    have hb : b0 = Config.startMarker := by simpa [Instr.wf] using h
    rw [encode, decodeKey, decodePrefix_key, if_pos hb]
    split_ifs <;> simp [Instr.tableRow]
  | idleSop | shapeAnswer | shapeAsync | b2Code | b3SeqLenhi | b4Len | payByte | chkByte | st7Reserved | reset | idleCycle
  | accept | refAnswer | refAsync => cases h

/-- Settles O3: a covering row is the key's own row, or has an operand that a row of higher priority takes. -/
theorem decoderFollowsTablePriority : Obligations.DecoderFollowsTablePriority := by
  intro k
  constructor
  · obtain ⟨-, hencode⟩ := everyKeyIsOneRow k
    simpa only [hencode] using covers_encode (decodeKey k)
  · intro i hcovers
    obtain ⟨j, hrow, rfl⟩ := exists_encode_of_covers hcovers
    rw [← hrow]
    cases hwf : j.wf with
    | true => exact .inl (by rw [rowsDecodeAfterEncode j hwf])
    | false => exact .inr (priority_lt_of_not_wf hwf)

end Sys2Proof
end

section
/-! PROOFS. The block on several bytes in a row: the state rules chained along a byte sequence, their run on the machine, and a whole
frame from IDLE (95_test_vectors.md 1.2 item 1; 42_fsm_operations.md R174, R175). -/

namespace Sys2Proof.Machine

/-! ### A state rule is the step on an edge with its byte -/

/-- The converse of `exec_accept_follows_rule`: the rule that applies is the one an Accept step runs. -/
theorem StateRule.exec_accept {s : State} {b : Byte} {g : Regs} {es : List Event} (hb : s.inp.inData = b)
    (h : StateRule s.regs b g es) : exec .accept s = .next (acceptByte b g es s) := by
  subst hb
  simp only [exec, execAccept]
  cases h with
  | startFound hst hFF =>
    rcases hst with hst | hst
    · simp only [hst, acceptIdle_eq_searchMarker, hFF, searchMarker_of_start]
    · simp only [hst, execSt7Reserved, hFF, searchMarker_of_start]
  | badStart hst hFF =>
    rcases hst with hst | hst
    · simp only [hst, acceptIdle_eq_searchMarker, searchMarker_of_other _ _ hFF]; rfl
    · simp only [hst, execSt7Reserved, searchMarker_of_other _ _ hFF]; rfl
  | shapeSelected hst hm =>
    simp only [hst]
    rcases hm with hm | hm <;> rw [hm] <;> rfl
  | shapeUnknown hst hFF hFE => simp only [hst, acceptShape, if_neg hFF, if_neg hFE]; rfl
  | code hst | third hst | payload hst => simp only [hst]; rfl
  | zeroLength hst h0 => simp only [hst]; exact if_pos h0
  | emptyPayload hst h1 =>
    have h0 : newLength s.regs s.inp.inData ≠ 0 := by rw [h1]; decide
    simp only [hst]; exact (if_neg h0).trans (if_pos h1)
  | payloadFollows hst h0 h1 => simp only [hst]; exact (if_neg h0).trans (if_neg h1)
  | commit hst hv => simp only [hst]; exact if_pos hv
  | mismatch hst hv => simp only [hst]; exact if_neg (Bool.not_eq_true _ ▸ hv)

theorem step_byteEdge {s : State} {b : Byte} {rest : List Stimulus} {g : Regs} {es : List Event}
    (hs : s.stimuli = byteEdge b :: rest) (h : StateRule s.regs b g es) :
    step s = .next (acceptByte b g es { s with stimuli := rest, inp := ⟨false, true, b⟩ }) := by
  rw [step_edge s ⟨false, true, b⟩ rest hs, decodeKey, decodeCtl_accept]
  exact StateRule.exec_accept (s := { s with stimuli := rest, inp := ⟨false, true, b⟩ }) rfl h

/-- The state rules one after another on the bytes of a sequence, with all their events. It is what the machine does on edges that
present these bytes (`RulesRun.run`). -/
inductive RulesRun : Regs → List Byte → Regs → List Event → Prop where
  | nil (g : Regs) : RulesRun g [] g []
  | cons {g g' g'' : Regs} {b : Byte} {bs : List Byte} {es fs : List Event} :
      StateRule g b g' es → RulesRun g' bs g'' fs → RulesRun g (b :: bs) g'' (es ++ fs)

theorem RulesRun.single {g g' : Regs} {b : Byte} {es : List Event} (h : StateRule g b g' es) : RulesRun g [b] g' es := by
  simpa only [List.append_nil] using RulesRun.cons h (.nil g')

theorem RulesRun.append {g g' g'' : Regs} {bs cs : List Byte} {es fs : List Event} (h : RulesRun g bs g' es)
    (h' : RulesRun g' cs g'' fs) : RulesRun g (bs ++ cs) g'' (es ++ fs) := by
  induction h with
  | nil => exact h'
  | cons hrule _ ih =>
    rw [List.append_assoc]
    exact .cons hrule (ih h')

theorem run_succ {s t : State} (n : Nat) (h : step s = .next t) :
    Host.Core.run Sys2Proof.core (n + 1) s = Host.Core.run Sys2Proof.core n t := by
  simp only [Host.Core.run, Sys2Proof.core, h]

theorem RulesRun.run {g g' : Regs} {bs : List Byte} {es : List Event} (h : RulesRun g bs g' es) (s : State)
    (rest : List Stimulus) (hregs : s.regs = g) (hs : s.stimuli = bs.map byteEdge ++ rest) :
    ∃ t : State, Host.Core.run Sys2Proof.core bs.length s = .next t ∧ t.regs = g' ∧ t.stimuli = rest ∧
      t.stream = s.stream ++ bs ∧ t.history = s.history ++ es := by
  induction h generalizing s with
  | nil => exact ⟨s, rfl, hregs, hs, by simp, by simp⟩
  | @cons g g' g'' b bs es fs hrule _ ih =>
    subst hregs
    have hstep := step_byteEdge hs hrule
    obtain ⟨t, hrun, hregs, hstimuli, hstream, hhistory⟩ :=
      ih (acceptByte b g' es { s with stimuli := bs.map byteEdge ++ rest, inp := ⟨false, true, b⟩ }) rfl rfl
    refine ⟨t, (run_succ _ hstep).trans hrun, hregs, hstimuli, ?_, ?_⟩
    · rw [hstream, acceptByte_stream, List.append_assoc]; rfl
    · rw [hhistory, acceptByte_history, List.append_assoc]

/-! ### A whole frame -/

theorem Abstracts.length_field {x m c d e : Byte} {p : List Byte} {g : Regs} (h : Abstracts (x :: m :: c :: d :: e :: p) g) :
    g.len = frameLengthField (markerShape m) d e := by
  obtain ⟨-, -, ⟨-, hlen⟩, -⟩ := (abstracts_body_iff ..).mp h
  exact hlen

/-- The first four bytes of a frame emit nothing and leave R171's registers (R154 to R157). -/
theorem rulesRun_header {g : Regs} (hidle : g.st = .idle) {m : Byte} (hm : IsMarker m) (c d : Byte) :
    ∃ g', RulesRun g [Config.startMarker, m, c, d] g' [] ∧ Abstracts [Config.startMarker, m, c, d] g' := by
  have hthird : Abstracts [Config.startMarker, m, c] { g with shape := markerShape m, code := c, acc := c, st := .b3 } :=
    ⟨rfl, rfl, rfl, rfl⟩
  refine ⟨_, ?_, abstracts_of_third hthird d⟩
  exact .cons (.startFound (.inl hidle) rfl) (.cons (.shapeSelected rfl hm) (.cons (.code rfl) (.single (.third rfl))))

/-- Byte 4 of a frame with a nonzero length emits nothing and leaves R171's registers (R158). -/
theorem rulesRun_length {x m c d : Byte} {g : Regs} (h : Abstracts [x, m, c, d] g) (e : Byte)
    (hL : 1 ≤ (frameLengthField (markerShape m) d e).toNat) :
    ∃ g', RulesRun g [e] g' [] ∧ Abstracts [x, m, c, d, e] g' := by
  obtain ⟨hst, -⟩ := (abstracts_four_iff ..).mp h
  rw [← newLength_of_abstracts h] at hL
  by_cases h1 : newLength g e = 1
  · exact ⟨_, .single (.emptyPayload hst h1), abstracts_of_fourth h e _ hL (by rw [h1]; rfl)⟩
  · have h0 : newLength g e ≠ 0 := by
      rintro h0
      rw [h0] at hL
      cases hL
    have h2 : 1 < (newLength g e).toNat := lt_of_le_of_ne hL fun h => h1 (BitVec.eq_of_toNat_eq h.symm)
    exact ⟨_, .single (.payloadFollows hst h0 h1), abstracts_of_fourth h e _ hL (if_pos h2).symm⟩

/-- The payload bytes of a frame in progress are streamed in index order (R159, R174). -/
theorem rulesRun_payload {x m c d e : Byte} (ps : List Byte) {p : List Byte} {g : Regs}
    (h : Abstracts (x :: m :: c :: d :: e :: p) g) (hlen : p.length + ps.length + 1 = g.len.toNat) :
    ∃ g', RulesRun g ps g' (payloadEvents p.length ps) ∧ Abstracts (x :: m :: c :: d :: e :: (p ++ ps)) g' := by
  induction ps generalizing p g with
  | nil => exact ⟨g, .nil g, by rwa [List.append_nil]⟩
  | cons b ps ih =>
    rw [List.length_cons] at hlen
    obtain ⟨-, -, -, hidx, -, -, hst⟩ := (abstracts_body_iff ..).mp h
    have hmore : p.length + 1 < g.len.toNat := by omega
    rw [if_pos hmore] at hst
    obtain ⟨g', hrun, habs⟩ := ih (abstracts_of_payload h hmore b) (by simp; omega)
    have hindex : g.idx = BitVec.ofNat 16 p.length := by rw [← hidx, BitVec.ofNat_toNat, BitVec.setWidth_eq]
    rw [List.length_append, List.length_singleton] at hrun
    refine ⟨g', ?_, by simpa using habs⟩
    rw [payloadEvents, ← hindex]
    exact .cons (.payload hst) hrun

/-- On the covered sum the block's test is the reference's (R104). -/
theorem accValid_sumMod256 (s : List Byte) (k : Byte) : accValid (sumMod256 s) k = true ↔ k = checksum s := by
  have hmod : BitVec.ofNat 8 (byteSum s % 256) = BitVec.ofNat 8 (byteSum s) := BitVec.eq_of_toNat_eq (by simp)
  rw [accValid, beq_iff_eq, sumMod256, checksum, hmod]

/-- What the block reports at the checksum byte `k` of a frame with the header bytes `m`, `c`, `d`, `e` and the payload `p`. -/
def frameVerdict (m c d e : Byte) (p : List Byte) (k : Byte) : Event :=
  if k = checksum (c :: d :: e :: p) then
    .frame (markerShape m) c (sequenceOf (markerShape m) d) (BitVec.ofNat 16 (p.length + 1)) k
  else .error .checksumMismatch (6 + p.length)

theorem rulesRun_checksum {x m c d e : Byte} {p : List Byte} {g : Regs} (h : Abstracts (x :: m :: c :: d :: e :: p) g)
    (hlen : p.length + 1 = g.len.toNat) (k : Byte) :
    RulesRun g [k] { g with st := .idle } [frameVerdict m c d e p k] := by
  obtain ⟨hshape, hcode, ⟨hseq, -⟩, -, hacc, -, hst⟩ := (abstracts_body_iff ..).mp h
  rw [if_neg hlen.not_lt] at hst
  have hL : g.len = BitVec.ofNat 16 (p.length + 1) := by rw [hlen, BitVec.ofNat_toNat, BitVec.setWidth_eq]
  have hvalid : accValid g.acc k = true ↔ k = checksum (c :: d :: e :: p) := by rw [hacc, accValid_sumMod256]
  refine .single ?_
  unfold frameVerdict
  split_ifs with hk
  · rw [← hseq, ← hshape, ← hcode, ← hL]
    exact .commit hst (hvalid.mpr hk)
  · rw [show 6 + p.length = 5 + g.len.toNat by omega]
    exact .mismatch hst (by rwa [← Bool.not_eq_true, hvalid])

/-- A frame from IDLE, of either shape, gives its payload events and then its verdict. -/
theorem rulesRun_frame {g : Regs} (hidle : g.st = .idle) {m : Byte} (hm : IsMarker m) (c d e : Byte) (p : List Byte) (k : Byte)
    (hL : (frameLengthField (markerShape m) d e).toNat = p.length + 1) :
    ∃ g', g'.st = .idle ∧
      RulesRun g (Config.startMarker :: m :: c :: d :: e :: (p ++ [k])) g' (payloadEvents 0 p ++ [frameVerdict m c d e p k]) := by
  obtain ⟨g4, hheader, h4⟩ := rulesRun_header hidle hm c d
  obtain ⟨g5, hlength, h5⟩ := rulesRun_length h4 e (by omega)
  obtain ⟨g6, hpayload, h6⟩ := rulesRun_payload p h5 (by rw [h5.length_field, hL, List.length_nil, Nat.zero_add])
  have hchecksum := rulesRun_checksum h6 (by rw [h6.length_field, hL, List.nil_append]) k
  exact ⟨_, rfl, hheader.append (hlength.append (hpayload.append hchecksum))⟩

/-- A frame lined up as edges is taken in as many steps as it has bytes. -/
theorem run_frame {s : State} (hidle : s.regs.st = .idle) {m : Byte} (hm : IsMarker m) (c d e : Byte) (p : List Byte) (k : Byte)
    (hL : (frameLengthField (markerShape m) d e).toNat = p.length + 1) {rest : List Stimulus}
    (hs : s.stimuli = (Config.startMarker :: m :: c :: d :: e :: (p ++ [k])).map byteEdge ++ rest) :
    ∃ t : State, Host.Core.run Sys2Proof.core (6 + p.length) s = .next t ∧ t.regs.st = .idle ∧ t.stimuli = rest ∧
      t.history = s.history ++ payloadEvents 0 p ++ [frameVerdict m c d e p k] := by
  obtain ⟨g, hst, hrules⟩ := rulesRun_frame hidle hm c d e p k hL
  obtain ⟨t, hrun, hregs, hstimuli, -, hhistory⟩ := hrules.run s rest rfl hs
  have hsteps : (Config.startMarker :: m :: c :: d :: e :: (p ++ [k])).length = 6 + p.length := by
    simp only [List.length_cons, List.length_append, List.length_nil]
    omega
  exact ⟨t, by rw [← hsteps, hrun], by rw [hregs, hst], hstimuli, by rw [hhistory, List.append_assoc]⟩

/-- The length field of an Answer frame, at most 254 payload bytes (R75). -/
theorem frameLengthField_answer (d : Byte) {n : Nat} (h : n ≤ 254) :
    (frameLengthField .answer d (BitVec.ofNat 8 (n + 1))).toNat = n + 1 := by
  rw [frameLengthField, zext16_toNat, BitVec.toNat_ofNat]
  omega

/-- The big-endian length field of an Async frame, at most 65534 payload bytes (R75). -/
theorem frameLengthField_async {n : Nat} (h : n ≤ 65534) :
    (frameLengthField .async (BitVec.ofNat 8 ((n + 1) / 256)) (BitVec.ofNat 8 ((n + 1) % 256))).toNat = n + 1 := by
  rw [frameLengthField, concatBytes_toNat, BitVec.toNat_ofNat, BitVec.toNat_ofNat]
  omega

/-- Settles O30: both shapes are the run of one frame, with the length field read back. -/
theorem framesAreReportedFromIdle : Obligations.FramesAreReportedFromIdle :=
  ⟨fun _ c q k p _ hidle hp hs => run_frame hidle (.inl rfl) c q _ p k (frameLengthField_answer q hp) hs,
    fun _ c k p _ hidle hp hs => run_frame hidle (.inr rfl) c _ _ p k (frameLengthField_async hp) hs⟩

end Sys2Proof.Machine
end

section
/-! PROOFS. The checksum and its validator (40_checksum.md): the running sum, the equivalent forms of the checksum and of the test,
and which changes of a covered range the test detects. -/

namespace Sys2Proof.Machine

/-! ### The sum and the running sum (R102, R103) -/

theorem byteSum_perm {s t : List Byte} (h : s.Perm t) : byteSum s = byteSum t :=
  (h.map BitVec.toNat).sum_eq

theorem sumMod256_toNat (s : List Byte) : (sumMod256 s).toNat = byteSum s % 256 :=
  BitVec.toNat_ofNat _ 8

theorem ofNat_byteSum_mod (s : List Byte) : BitVec.ofNat 8 (byteSum s % 256) = sumMod256 s :=
  BitVec.eq_of_toNat_eq (by rw [BitVec.toNat_ofNat, sumMod256_toNat, Nat.mod_mod])

theorem addMod256_byteSum_toNat (s : List Byte) (b : Byte) :
    (addMod256 (BitVec.ofNat 8 (byteSum s % 256)) b).toNat = byteSum (s ++ [b]) % 256 := by
  rw [ofNat_byteSum_mod, addMod256_sumMod256, sumMod256_toNat]

/-- Settles O33: the 8-bit addition discards the carries that `mod 256` discards. -/
theorem runningSumIsTheSum : Obligations.RunningSumIsTheSum :=
  fun s b => (addMod256_byteSum_toNat s b).symm

/-- A change of one byte by a difference below 256 changes the sum mod 256. -/
theorem byteSum_mod_replace_iff (u v : List Byte) (x y : Byte) :
    byteSum (u ++ x :: v) % 256 = byteSum (u ++ y :: v) % 256 ↔ x = y := by
  have hx := x.isLt
  have hy := y.isLt
  rw [← BitVec.toNat_inj, byteSum_append, byteSum_append, byteSum_cons, byteSum_cons]
  omega

/-! ### The forms of the checksum (R101) -/

theorem xor_0xFF_eq_not (b : Byte) : b ^^^ 0xFF = ~~~b :=
  BitVec.xor_allOnes

theorem checksum_eq_not (s : List Byte) : checksum s = ~~~BitVec.ofNat 8 (byteSum s % 256) :=
  xor_0xFF_eq_not _

theorem checksum_toNat (s : List Byte) : (checksum s).toNat = 0xFF - byteSum s % 256 := by
  rw [checksum_eq_not, ofNat_byteSum_mod, BitVec.toNat_not, sumMod256_toNat]

/-- Settles O31: the XOR flips all 8 bits, and `0xFF - x` needs no borrow and is below 256. -/
theorem checksumForms : Obligations.ChecksumForms := by
  intro s
  have hlt : 0xFF - byteSum s % 256 < 256 := by omega
  exact ⟨rfl, checksum_toNat s, by rw [checksum_toNat, Nat.mod_eq_of_lt hlt], checksum_eq_not s⟩

theorem checksum_eq_iff (s t : List Byte) : checksum s = checksum t ↔ byteSum s % 256 = byteSum t % 256 := by
  rw [← BitVec.toNat_inj, checksum_toNat, checksum_toNat]
  omega

/-- Settles O32: the sum does not see the order. -/
theorem checksumIgnoresOrder : Obligations.ChecksumIgnoresOrder :=
  fun s t h => (checksum_eq_iff s t).mpr (congrArg (· % 256) (byteSum_perm h))

/-! ### The forms of the test (R104, R105) -/

theorem accValid_iff_addMod256 (acc c : Byte) : accValid acc c = true ↔ addMod256 acc c = 0xFF := by
  have hacc := acc.isLt
  have hc := c.isLt
  have hff : (0xFF : Byte).toNat = 255 := rfl
  rw [accValid, beq_iff_eq, xor_0xFF_eq_not, ← BitVec.toNat_inj, ← BitVec.toNat_inj, BitVec.toNat_not, addMod256_toNat, hff]
  omega

theorem accValid_byteSum (covered : List Byte) (c : Byte) :
    accValid (BitVec.ofNat 8 (byteSum covered % 256)) c = checksumValid covered c := rfl

theorem checksumValid_iff_byteSum (covered : List Byte) (c : Byte) :
    checksumValid covered c = true ↔ byteSum (covered ++ [c]) % 256 = 0xFF := by
  rw [← accValid_byteSum, accValid_iff_addMod256, ← BitVec.toNat_inj, addMod256_byteSum_toNat]
  rfl

/-- Settles O34: the block's test in its additive form, carried to the covered bytes by the running sum. -/
theorem validityForms : Obligations.ValidityForms :=
  ⟨accValid_iff_addMod256, checksumValid_iff_byteSum, accValid_byteSum⟩

/-! ### What the test detects (R106) -/

theorem checksumValid_eq_true_iff (covered : List Byte) (c : Byte) : checksumValid covered c = true ↔ c = checksum covered :=
  beq_iff_eq

theorem checksumValid_eq_false_iff (covered : List Byte) (c : Byte) : checksumValid covered c = false ↔ c ≠ checksum covered :=
  beq_eq_false_iff_ne

theorem checksumValid_congr {u v : List Byte} (h : byteSum u % 256 = byteSum v % 256) (c : Byte) :
    checksumValid u c = checksumValid v c := by
  rw [checksumValid, checksumValid, (checksum_eq_iff u v).mpr h]

/-- A covered range with one byte changed has another checksum. -/
theorem checksum_replace_iff (u v : List Byte) (x y : Byte) : checksum (u ++ x :: v) = checksum (u ++ y :: v) ↔ x = y :=
  (checksum_eq_iff _ _).trans (byteSum_mod_replace_iff u v x y)

/-- Settles O35: the received byte is the checksum of one of the two ranges only, and a range has only one checksum. -/
theorem whatTheChecksumDetects : Obligations.WhatTheChecksumDetects := by
  refine ⟨fun u v x y c d hvalid => ?_, fun _ _ c h => checksumValid_congr h c⟩
  rw [checksumValid_eq_true_iff] at hvalid
  refine ⟨fun hxy => ?_, fun hcd => ?_⟩
  · rw [checksumValid_eq_false_iff, hvalid]
    exact mt (checksum_replace_iff u v x y).mp hxy
  · rw [checksumValid_eq_false_iff, ← hvalid]
    exact hcd.symm

end Sys2Proof.Machine
end

section
/-! PROOFS. What the reference answers (41_reference_parser.md): the paths of a frame (R124 to R126), the forms of Parse's result
(R127) and of the remainder (R132), the guarded loop (R131), and the properties the source asks of the parser (R133). -/

namespace Sys2Proof.Machine

/-! ### The marker errors and one turn of the drain loop (R122, R123, R129) -/

/-- Settles O36: both rows take a fixed result, whose turn of the drain loop discards one byte. -/
theorem markerErrorsDiscardOneByte : Obligations.MarkerErrorsDiscardOneByte :=
  ⟨fun _ _ s => ⟨_, rfl, takeResult_drained badStartResult s⟩, fun _ s => ⟨_, rfl, takeResult_drained unknownShapeResult s⟩⟩

/-- R121. -/
theorem parse_of_short {b : List Byte} (h : b.length < 2) : parse b = .wait := by
  match b with
  | [] | [_] => rfl
  | _ :: _ :: _ => simp at h

/-- Settles O39: below two bytes Parse waits, and from two on the selected row takes Parse's result. -/
theorem prefixRowsAreParse : Obligations.PrefixRowsAreParse :=
  ⟨fun _ h => parse_of_short h, fun s b0 b1 tail h => ⟨_, exec_prefix s b0 b1 tail h, takeResult_drained _ s⟩⟩

/-! ### The path of a frame, both shapes at once (R124 to R126) -/

theorem parsePath_of_short (sh : Shape) {b : List Byte} (h : b.length < Config.headerLength) : parsePath sh b = .wait := by
  match b with
  | [] | [_] | [_, _] | [_, _, _] | [_, _, _, _] => rfl
  | _ :: _ :: _ :: _ :: _ :: _ => simp [Config.headerLength] at h; omega

section Path

variable {sh : Shape} {d e : Byte} {n : Nat} (hL : (frameLengthField sh d e).toNat = n)

include hL

theorem frameLengthField_eq_ofNat : frameLengthField sh d e = BitVec.ofNat 16 n := by
  rw [← hL, BitVec.ofNat_toNat, BitVec.setWidth_eq]

theorem frameLengthField_ne_zero (hn : 0 < n) : frameLengthField sh d e ≠ 0 := by
  intro h0
  simp [h0] at hL
  omega

variable (m0 m1 c : Byte)

/-- R126. -/
theorem parsePath_of_zeroLength (rest : List Byte) (hn : n = 0) :
    parsePath sh (m0 :: m1 :: c :: d :: e :: rest) = ⟨5, none, some .badLength⟩ :=
  parseBody_of_zero (BitVec.eq_of_toNat_eq (hL.trans hn))

theorem parsePath_of_partial {rest : List Byte} (hrest : rest.length < n) :
    parsePath sh (m0 :: m1 :: c :: d :: e :: rest) = .wait :=
  parseBody_of_short (frameLengthField_ne_zero hL (by omega)) (by simp only [List.length_cons, hL]; omega)

/-- Once the whole frame is there, the fields are its bytes and the validator decides. -/
theorem parsePath_of_complete {p : List Byte} (k : Byte) (tail : List Byte) (hp : n = p.length + 1) :
    parsePath sh (m0 :: m1 :: c :: d :: e :: (p ++ k :: tail)) =
      if checksumValid (c :: d :: e :: p) k
        then ⟨5 + n, some (frameRecord sh c d (BitVec.ofNat 16 n) p k), none⟩
        else ⟨5 + n, none, some .checksumMismatch⟩ := by
  have hend : 4 + n = p.length + 5 := by omega
  have hcovered : slice (m0 :: m1 :: c :: d :: e :: (p ++ k :: tail)) 2 (4 + n) = c :: d :: e :: p := by
    rw [hend]; simp [slice]
  have hpayload : slice (m0 :: m1 :: c :: d :: e :: (p ++ k :: tail)) 5 (4 + n) = p := by
    rw [hend]; simp [slice]
  have hchk : (m0 :: m1 :: c :: d :: e :: (p ++ k :: tail)).getD (4 + n) 0 = k := by
    rw [hend]; simp
  have hbuf : ¬ (m0 :: m1 :: c :: d :: e :: (p ++ k :: tail)).length < 5 + (frameLengthField sh d e).toNat := by
    simp only [List.length_cons, List.length_append, hL]
    omega
  refine (parseBody_of_complete (frameLengthField_ne_zero hL (by omega)) hbuf).trans ?_
  simp only [hL, hcovered, hpayload, hchk]
  rw [frameLengthField_eq_ofNat hL]

end Path

/-! ### The rows REF_ANSWER and REF_ASYNC (R124, R125, R129) -/

/-- The drain loop's turn with a result of known events and remaining bytes. -/
theorem drained_of_eq {s : State} {r r' : ParseResult} {es : List RefEvent} {rest : List Byte} (hr : r' = r)
    (hes : r.events = es) (hrest : s.ref.buffer.drop r.consumed = rest) : Drained r es rest s (takeResult r' s) := by
  subst hr hes hrest
  exact takeResult_drained _ s

section Turn

variable (sh : Shape) {s : State}

theorem drained_of_wait (hwait : parsePath sh s.ref.buffer = .wait) :
    Drained ⟨0, none, none⟩ [] s.ref.buffer s (takeResult (parsePath sh s.ref.buffer) s) :=
  drained_of_eq hwait rfl rfl

theorem drained_of_short (h : s.ref.buffer.length < 5) :
    Drained ⟨0, none, none⟩ [] s.ref.buffer s (takeResult (parsePath sh s.ref.buffer) s) :=
  drained_of_wait sh (parsePath_of_short sh h)

variable {m0 m1 c d e : Byte} {rest : List Byte} (hbuf : s.ref.buffer = m0 :: m1 :: c :: d :: e :: rest) {n : Nat}
  (hL : (frameLengthField sh d e).toNat = n)

include hbuf hL

theorem drained_of_zeroLength (hn : n = 0) :
    Drained ⟨5, none, some .badLength⟩ [.error .badLength 5] rest s (takeResult (parsePath sh s.ref.buffer) s) :=
  drained_of_eq (by rw [hbuf, parsePath_of_zeroLength hL m0 m1 c rest hn]) rfl (by rw [hbuf]; rfl)

theorem drained_of_partial (hrest : rest.length < n) :
    Drained ⟨0, none, none⟩ [] s.ref.buffer s (takeResult (parsePath sh s.ref.buffer) s) :=
  drained_of_wait sh (by rw [hbuf, parsePath_of_partial hL m0 m1 c hrest])

/-- The whole frame leaves the buffer, as a Frame or as a ChecksumMismatch. -/
theorem drained_of_complete {p : List Byte} {k : Byte} {tail : List Byte} (hrest : rest = p ++ k :: tail)
    (hn : n = p.length + 1) :
    (k = checksum (c :: d :: e :: p) →
      Drained ⟨5 + n, some (frameRecord sh c d (BitVec.ofNat 16 n) p k), none⟩
        [.frame (frameRecord sh c d (BitVec.ofNat 16 n) p k)] tail s (takeResult (parsePath sh s.ref.buffer) s)) ∧
    (k ≠ checksum (c :: d :: e :: p) →
      Drained ⟨5 + n, none, some .checksumMismatch⟩ [.error .checksumMismatch (5 + n)] tail s
        (takeResult (parsePath sh s.ref.buffer) s)) := by
  subst hrest
  have hparse := parsePath_of_complete hL m0 m1 c k tail hn
  rw [← hbuf] at hparse
  have hdrop : s.ref.buffer.drop (5 + n) = tail := by
    rw [hbuf, hn, Nat.add_comm]
    simp
  have hpos : 5 + n ≠ 0 := by omega
  refine ⟨fun hk => ?_, fun hk => ?_⟩
  · rw [if_pos ((checksumValid_eq_true_iff _ k).mpr hk)] at hparse
    exact drained_of_eq hparse (if_neg hpos) hdrop
  · rw [(checksumValid_eq_false_iff _ k).mpr hk, if_neg Bool.false_ne_true] at hparse
    exact drained_of_eq hparse (if_neg hpos) hdrop

end Turn

/-- Settles O37: the path of a frame with the length of byte 4. -/
theorem answerPathOfTheReference : Obligations.AnswerPathOfTheReference := by
  refine fun s => ⟨fun h => ⟨_, rfl, drained_of_short .answer h⟩, fun m0 m1 c q e rest hbuf => ?_⟩
  have hL : (frameLengthField .answer q e).toNat = e.toNat := zext16_toNat e
  refine ⟨fun he => ⟨_, rfl, ?_⟩, fun hrest => ⟨_, rfl, ?_⟩, fun p k tail hrest hn => ⟨_, rfl, ?_⟩⟩
  · exact drained_of_zeroLength .answer hbuf hL (congrArg BitVec.toNat he)
  · exact drained_of_partial .answer hbuf hL hrest
  · exact drained_of_complete .answer hbuf hL hrest hn

/-- Settles O38: the path of a frame with the big-endian length of bytes 3 and 4. -/
theorem asyncPathOfTheReference : Obligations.AsyncPathOfTheReference := by
  refine fun s => ⟨fun h => ⟨_, rfl, drained_of_short .async h⟩, fun m0 m1 c d e rest n hbuf hn => ?_⟩
  have hL : (frameLengthField .async d e).toNat = n := (concatBytes_toNat d e).trans hn.symm
  refine ⟨fun hn => ⟨_, rfl, ?_⟩, fun hrest => ⟨_, rfl, ?_⟩, fun p k tail hrest hn => ⟨_, rfl, ?_⟩⟩
  · exact drained_of_zeroLength .async hbuf hL hn
  · exact drained_of_partial .async hbuf hL hrest
  · exact drained_of_complete .async hbuf hL hrest hn

/-! ### The forms of Parse's result (R127) -/

/-- The results of R121 to R126. Parse gives no other (`parse_form`). -/
inductive ParseForm : ParseResult → Prop where
  | wait : ParseForm .wait
  | badStart : ParseForm badStartResult
  | unknownShape : ParseForm unknownShapeResult
  | badLength : ParseForm ⟨5, none, some .badLength⟩
  | frame (sh : Shape) (c d : Byte) (L : Half) (p : List Byte) (k : Byte) :
      ParseForm ⟨5 + L.toNat, some (frameRecord sh c d L p k), none⟩
  | mismatch (L : Half) : ParseForm ⟨5 + L.toNat, none, some .checksumMismatch⟩

theorem parseBody_form (sh : Shape) (buf : List Byte) (c d e : Byte) : ParseForm (parseBody sh buf c d e) := by
  by_cases hL : frameLengthField sh d e = 0
  · rw [parseBody_of_zero hL]; exact .badLength
  by_cases hbuf : buf.length < 5 + (frameLengthField sh d e).toNat
  · rw [parseBody_of_short hL hbuf]; exact .wait
  · rw [parseBody_of_complete hL hbuf]
    dsimp only
    split
    · exact .frame ..
    · exact .mismatch _

theorem parsePath_form (sh : Shape) (b : List Byte) : ParseForm (parsePath sh b) := by
  match b with
  | [] | [_] | [_, _] | [_, _, _] | [_, _, _, _] => exact .wait
  | _ :: _ :: c :: d :: e :: _ => exact parseBody_form sh _ c d e

theorem parse_form (b : List Byte) : ParseForm (parse b) := by
  match b with
  | [] | [_] => exact .wait
  | x :: m :: t =>
    by_cases hx : x = Config.startMarker
    · subst hx
      by_cases hm : IsMarker m
      · rw [parse_marker m t hm]; exact parsePath_form ..
      · rw [parse_unknownShape m t hm]; exact .unknownShape
    · rw [parse_badStart x m t hx]; exact .badStart

theorem frameRecord_payloadLength (sh : Shape) (c d : Byte) (L : Half) (p : List Byte) (k : Byte) :
    (frameRecord sh c d L p k).payloadLength = L.toNat := by
  cases sh <;> rfl

/-- A result that consumes nothing is the wait of R121. -/
theorem ParseForm.eq_wait {r : ParseResult} (h : ParseForm r) (hc : r.consumed = 0) : r = .wait := by
  cases h with
  | wait => rfl
  | badStart | unknownShape | badLength => exact absurd hc (by decide)
  | frame | mismatch => dsimp only at hc; omega

/-- R127: at most the 5 header bytes and the 65535 of the largest length. -/
theorem ParseForm.consumed_le {r : ParseResult} (h : ParseForm r) : r.consumed ≤ 65540 := by
  cases h with
  | wait | badStart | unknownShape | badLength => decide
  | frame _ _ _ L | mismatch L => have := L.isLt; dsimp only; omega

/-- R127: a wait, an error that discards at least one byte, or a frame of `5 + payloadLength` bytes. -/
theorem ParseForm.wait_or_error_or_frame {r : ParseResult} (h : ParseForm r) :
    r = .wait ∨ (∃ c k, 1 ≤ c ∧ r = ⟨c, none, some k⟩) ∨ ∃ f : Frame, r = ⟨5 + f.payloadLength, some f, none⟩ := by
  cases h with
  | wait => exact .inl rfl
  | badStart | unknownShape | badLength => exact .inr (.inl ⟨_, _, by decide, rfl⟩)
  | mismatch => exact .inr (.inl ⟨_, _, by omega, rfl⟩)
  | frame => exact .inr (.inr ⟨_, by rw [frameRecord_payloadLength]⟩)

/-- Settles O40: Parse's result has one of the forms, and its count is bounded by the buffer and by the largest frame. -/
theorem parseResultForms : Obligations.ParseResultForms :=
  fun b => ⟨(parse_form b).wait_or_error_or_frame, parse_consumed_le b, (parse_form b).consumed_le⟩

/-! ### Every wait ends (R128) -/

/-- No frame is longer than 65540 bytes, so that on so many Parse does not wait. -/
theorem parse_consumed_of_long {b : List Byte} (h : 65540 ≤ b.length) : (parse b).consumed ≠ 0 := by
  match b with
  | [] | [_] | [_, _] | [_, _, _] | [_, _, _, _] => simp at h
  | x :: m :: c :: d :: e :: t =>
    intro hwait
    obtain ⟨rfl, hm⟩ := marker_of_parse_wait hwait
    have hlt := (frameLengthField (markerShape m) d e).isLt
    rw [parse_body_consumed c hm] at hwait
    simp only [List.length_cons] at h
    split at hwait
    · omega
    split at hwait <;> omega

theorem exists_append_consumed (b : List Byte) : ∃ t : List Byte, t ≠ [] ∧ 1 ≤ (parse (b ++ t)).consumed := by
  refine ⟨List.replicate 65540 0, mt (List.replicate_eq_nil_iff _).mp (by decide), Nat.one_le_iff_ne_zero.mpr ?_⟩
  apply parse_consumed_of_long
  rw [List.length_append, List.length_replicate]
  exact Nat.le_add_left ..

/-- Settles O41: appended bytes change no nonzero count, and enough of them end any wait. -/
theorem parseIsPrefixStable : Obligations.ParseIsPrefixStable :=
  ⟨fun b t h => parse_append b t (Nat.one_le_iff_ne_zero.mp h), fun b _ => exists_append_consumed b⟩

/-! ### The drain loop, in chunks and guarded (R130, R131, R132) -/

/-- Settles O42: the two components of the drain of a stream cut in two. -/
theorem drainIsIndependentOfChunks : Obligations.DrainIsIndependentOfChunks :=
  fun a b => ⟨congrArg Prod.fst (refDrain_append a b), refRem_append a b⟩

/-- The guarded loop takes the reference's turns until it stops, and where it stops with 5 bytes or more the reference stops too. -/
theorem guardedDrainFuel_prefix (fuel : Nat) : ∀ b : List Byte, b.length ≤ fuel →
    (guardedDrainFuel fuel b).1 <+: refEvents b ∧
      (5 ≤ (guardedDrainFuel fuel b).2.length → guardedDrainFuel fuel b = refDrain b) := by
  induction fuel with
  | zero => exact fun b hb => ⟨List.nil_prefix, fun h5 => absurd (Nat.le_trans h5 hb) (by decide)⟩
  | succ fuel ih =>
    intro b hb
    rw [guardedDrainFuel]
    by_cases hguard : b.length < Config.headerLength
    · rw [if_pos hguard]
      exact ⟨List.nil_prefix, fun h5 => absurd hguard (Nat.not_lt.mpr h5)⟩
    rw [if_neg hguard]
    by_cases hc : (parse b).consumed = 0
    · rw [if_pos hc]
      exact ⟨List.nil_prefix, fun _ => (refDrain_of_wait b hc).symm⟩
    rw [if_neg hc, refEvents, refDrain_of_take b hc]
    obtain ⟨hprefix, hagree⟩ := ih (b.drop (parse b).consumed) (by rw [List.length_drop]; omega)
    refine ⟨(List.prefix_append_right_inj _).mpr hprefix, fun h5 => ?_⟩
    dsimp only
    rw [hagree h5, refEvents, refRem]

/-- Settles O43: the guarded loop with its fuel for every byte. -/
theorem guardedLoopReportsAPrefix : Obligations.GuardedLoopReportsAPrefix :=
  fun s => guardedDrainFuel_prefix s.length s le_rfl

/-- Settles O44: on the remainder Parse waits, on two bytes or more of which the first two begin a frame. -/
theorem remainderForms : Obligations.RemainderForms := by
  intro s
  have hwait := parse_refRem_consumed s
  obtain ⟨t, ht, hconsumed⟩ := exists_append_consumed (refRem s)
  match hrem : refRem s with
  | [] => exact .inl rfl
  | [x] => exact .inr (.inl ⟨x, rfl⟩)
  | x :: m :: r =>
    rw [hrem] at hwait hconsumed
    obtain ⟨rfl, hm⟩ := marker_of_parse_wait hwait
    exact .inr (.inr ⟨m, r, t, rfl, hm, ht, hconsumed⟩)

/-! ### The properties the source asks of the parser (R133) -/

/-- Fewer first bytes of what Parse takes as a whole wait: a nonzero count would be the same on the whole (R128), and is not. -/
theorem parse_wait_of_prefix {b w : List Byte} (hprefix : b <+: w) (hlt : b.length < (parse w).consumed) : parse b = .wait := by
  obtain ⟨t, rfl⟩ := hprefix
  refine (parse_form b).eq_wait ?_
  by_contra hc
  have hle := parse_consumed_le b
  rw [parse_append b t hc] at hlt
  omega

/-- The length field of a marker's shape (R75). -/
theorem frameLengthField_markerShape {m : Byte} (hm : IsMarker m) (d e : Byte) :
    (frameLengthField (markerShape m) d e).toNat = if m = 0xFF then e.toNat else d.toNat * 256 + e.toNat := by
  rcases hm with rfl | rfl
  · exact zext16_toNat e
  · exact concatBytes_toNat d e

theorem parse_wait_of_frame_prefix {m c d e : Byte} {body b : List Byte} (hm : IsMarker m)
    (hlen : body.length = (frameLengthField (markerShape m) d e).toNat) (hne : body ≠ [])
    (hprefix : b <+: Config.startMarker :: m :: c :: d :: e :: body) (hb : b.length < 5 + body.length) : parse b = .wait := by
  have hL := frameLengthField_ne_zero hlen.symm (List.length_pos_of_ne_nil hne)
  apply parse_wait_of_prefix hprefix
  rwa [parse_body_consumed c hm, if_neg hL, if_neg (by omega), ← hlen]

/-- R122, R129: a bad start costs one byte and the drain goes on behind it. -/
theorem refDrain_badStart (x y : Byte) (tail : List Byte) (hx : x ≠ Config.startMarker) :
    refDrain (x :: y :: tail) = (.error .badStartMarker 1 :: refEvents (y :: tail), refRem (y :: tail)) := by
  have hparse := parse_badStart x y tail hx
  rw [refDrain_of_take _ (by rw [hparse]; decide), hparse]
  rfl

/-- An Answer frame whose checksum byte is not its checksum is discarded whole. -/
theorem parse_answer_mismatch (c q k : Byte) {p : List Byte} (hp : p.length ≤ 254)
    (hk : k ≠ checksum (c :: q :: BitVec.ofNat 8 (p.length + 1) :: p)) :
    parse (answerBytes c q p k) = ⟨5 + (p.length + 1), none, some .checksumMismatch⟩ := by
  refine (parsePath_of_complete (frameLengthField_answer q hp) 0xFF 0xFF c k [] rfl).trans ?_
  rw [(checksumValid_eq_false_iff _ k).mpr hk, if_neg Bool.false_ne_true]

/-- A changed payload byte changes the checksum of the frame (R106). -/
theorem parse_answer_corrupted (c q : Byte) {x y : Byte} {u v : List Byte} (hlen : u.length + v.length ≤ 253) (hxy : x ≠ y) :
    parse (answerBytes c q (u ++ y :: v) (checksum (c :: q :: BitVec.ofNat 8 (u.length + v.length + 2) :: (u ++ x :: v)))) =
      ⟨7 + u.length + v.length, none, some .checksumMismatch⟩ := by
  have hp : (u ++ y :: v).length = u.length + v.length + 1 := by simp [Nat.add_assoc]
  have hchecksum := mt (checksum_replace_iff (c :: q :: BitVec.ofNat 8 (u.length + v.length + 2) :: u) v x y).mp hxy
  rw [parse_answer_mismatch c q _ (by omega) (by rw [hp]; exact hchecksum), hp]
  congr 1
  omega

/-- Settles O45, from the wait of an unfinished frame, R122, R123, and the detection of one changed byte. -/
theorem parserPropertiesOfTheSource : Obligations.ParserPropertiesOfTheSource := by
  refine ⟨fun m c d e body b hm hlen hne hprefix hb => ?_, fun x y tail hx => ?_, fun y tail hFF hFE => ?_,
    fun c q x y u v hlen hxy => ?_⟩
  · exact parse_wait_of_frame_prefix hm (hlen.trans (frameLengthField_markerShape hm d e).symm) hne hprefix hb
  · exact ⟨parse_badStart x y tail hx, refDrain_badStart x y tail hx⟩
  · exact parse_unknownShape y tail (not_or.mpr ⟨hFF, hFE⟩)
  · exact parse_answer_corrupted c q hlen hxy

end Sys2Proof.Machine
end

section
/-! PROOFS. The agreement of block and reference (42_fsm_operations.md R170, R171, R174; 41_reference_parser.md R130): each
accepted byte adds to the joined events what it adds to the reference's, and the reference's own loop may take its turns at any time. -/

namespace Sys2Proof.Machine

/-! ### The events of the drain loop (R129, R130) -/

theorem refEvents_of_wait {b : List Byte} (h : (parse b).consumed = 0) : refEvents b = [] := by
  rw [refEvents, refDrain_of_wait b h]

/-- What is its own remainder has been reported already. -/
theorem refEvents_of_remainder {b : List Byte} (h : refRem b = b) : refEvents b = [] :=
  refEvents_of_wait (by rw [← h]; exact parse_refRem_consumed b)

/-- One turn of the loop: a wait adds no event and removes no byte. -/
theorem refEvents_turn (b : List Byte) : (parse b).events ++ refEvents (b.drop (parse b).consumed) = refEvents b := by
  by_cases h : (parse b).consumed = 0
  · rw [ParseResult.events, if_pos h, h]; rfl
  · rw [refEvents, refEvents, refDrain_of_take b h]; rfl

theorem refRem_turn (b : List Byte) : refRem (b.drop (parse b).consumed) = refRem b := by
  by_cases h : (parse b).consumed = 0
  · rw [h]; rfl
  · exact (refRem_of_take b h).symm

theorem refEvents_append (a b : List Byte) : refEvents (a ++ b) = refEvents a ++ refEvents (refRem a ++ b) := by
  rw [refEvents, refDrain_append]

/-! ### Joining the events of a run (R170, R174) -/

theorem joinEvents_append (pending : List Byte) (es fs : List Event) :
    joinEvents pending (es ++ fs) =
      ((joinEvents (joinEvents pending es).1 fs).1,
        (joinEvents pending es).2 ++ (joinEvents (joinEvents pending es).1 fs).2) := by
  induction es generalizing pending with
  | nil => rfl
  | cons ev es ih => cases ev <;> simp [joinEvents, ih]

theorem joinedEvents_append (es fs : List Event) :
    joinedEvents (es ++ fs) = joinedEvents es ++ (joinEvents (pendingPayload es) fs).2 := by
  rw [joinedEvents, joinEvents_append]; rfl

theorem pendingPayload_append (es fs : List Event) :
    pendingPayload (es ++ fs) = (joinEvents (pendingPayload es) fs).1 := by
  rw [pendingPayload, joinEvents_append]; rfl

/-! ### The events of one accepted byte -/

/-- On the remainder `r` the events `es` are what the byte `b` adds: to the joined list what it adds to the reference's, the early
error now and before included (R170), and to the pending payload what it adds to the remainder's (R174). -/
structure Reports (r : List Byte) (b : Byte) (es : List Event) : Prop where
  events : earlyError r ++ (joinEvents (r.drop Config.headerLength) es).2 =
    refEvents (r ++ [b]) ++ earlyError (refRem (r ++ [b]))
  payload : (joinEvents (r.drop Config.headerLength) es).1 = (refRem (r ++ [b])).drop Config.headerLength

theorem earlyError_startMarker : earlyError [Config.startMarker] = [] := rfl

theorem earlyError_of_ne {x : Byte} (hx : x ≠ Config.startMarker) : earlyError [x] = [.error .badStartMarker 1] := if_pos hx

/-- While the block searches for the start marker, the reference reports what the block reported one byte before. -/
theorem refEvents_of_search {r : List Byte} (b : Byte) (h : RemainderForm .idle r) : refEvents (r ++ [b]) = earlyError r := by
  rcases h with rfl | ⟨x, hx, rfl⟩
  · rfl
  · rw [earlyError_of_ne hx, refEvents, List.singleton_append, refDrain_badStart x b [] hx]; rfl

/-- The search for the start marker reports the early error of its own byte (R154, R170). -/
theorem reports_of_search {r : List Byte} {b : Byte} {es : List Event} (h : RemainderForm .idle r)
    (hes : joinEvents [] es = ([], earlyError [b])) : Reports r b es := by
  have hdrop : r.drop Config.headerLength = [] := by rcases h with rfl | ⟨x, -, rfl⟩ <;> rfl
  constructor <;> rw [hdrop, hes, refRem_of_search r b h]
  case events => rw [refEvents_of_search b h]
  case payload => rfl

/-- R123: the block reports both errors at once, the second of them early. -/
theorem reports_of_unknownShape {b : Byte} (h : ¬ IsMarker b) :
    Reports [Config.startMarker] b [.error .unknownShape 1, .error .badStartMarker 1] := by
  have hb : b ≠ Config.startMarker := fun hb => h (.inl hb)
  have hparse := parse_unknownShape b [] h
  constructor <;> rw [List.singleton_append, refRem_of_unknownShape b h]
  case events => rw [earlyError_of_ne hb, ← refEvents_turn, hparse]; rfl
  case payload => rfl

/-- A byte of the header that leaves the frame incomplete reports nothing (R156, R157, R158). -/
theorem reports_of_header {t : List Byte} {b : Byte} (ht : t.length ≤ 3)
    (hrem : refRem (Config.startMarker :: t ++ [b]) = Config.startMarker :: t ++ [b]) :
    Reports (Config.startMarker :: t) b [] := by
  have hdrop : (Config.startMarker :: t).drop Config.headerLength = [] :=
    List.drop_eq_nil_of_le (by simp only [List.length_cons, Config.headerLength]; omega)
  have hdrop' : (Config.startMarker :: t ++ [b]).drop Config.headerLength = [] :=
    List.drop_eq_nil_of_le (by simp only [List.length_append, List.length_cons, List.length_nil, Config.headerLength]; omega)
  have hearly : earlyError (Config.startMarker :: t) = [] := by cases t <;> rfl
  have hearly' : earlyError (Config.startMarker :: t ++ [b]) = [] := by cases t <;> rfl
  constructor <;> rw [hrem, hdrop]
  case events => rw [refEvents_of_remainder hrem, hearly, hearly']; rfl
  case payload => rw [hdrop']; rfl

section Body

variable {m c d e : Byte}

/-- R126: BadLength is reported with the header's last byte. -/
theorem reports_of_zeroLength (hm : IsMarker m) (hL : frameLengthField (markerShape m) d e = 0) :
    Reports [Config.startMarker, m, c, d] e [.error .badLength 5] := by
  have hparse : parse [Config.startMarker, m, c, d, e] = ⟨5, none, some .badLength⟩ :=
    (parse_marker m _ hm).trans (parseBody_of_zero hL)
  constructor <;> simp only [List.cons_append, List.nil_append, refRem_of_zeroLength c hm hL]
  case events => rw [← refEvents_turn, hparse]; rfl
  case payload => rfl

variable {p : List Byte}

/-- A payload byte extends the pending payload, which index 0 begins (R159, R174). -/
theorem reports_of_payload {b : Byte} {i : Half} (hm : IsMarker m) (hi : i.toNat = p.length)
    (hpartial : (p ++ [b]).length < (frameLengthField (markerShape m) d e).toNat) :
    Reports (Config.startMarker :: m :: c :: d :: e :: p) b [.payloadByte i b] := by
  have hrem := refRem_of_partial c hm hpartial
  have hpending : (if i = 0 then [b] else p ++ [b]) = p ++ [b] := by
    split
    · next h0 => rw [List.eq_nil_of_length_eq_zero (hi.symm.trans (congrArg BitVec.toNat h0))]; rfl
    · rfl
  constructor <;> simp only [List.cons_append, hrem]
  case events => rw [refEvents_of_remainder hrem]; rfl
  case payload => exact hpending

/-- R124, R129: the drain of one whole frame reports the validator's verdict on it. -/
theorem refEvents_of_complete (k : Byte) (hm : IsMarker m) (hL : (frameLengthField (markerShape m) d e).toNat = p.length + 1) :
    refEvents (Config.startMarker :: m :: c :: d :: e :: (p ++ [k])) =
      [if k = checksum (c :: d :: e :: p)
        then .frame (frameRecord (markerShape m) c d (BitVec.ofNat 16 (p.length + 1)) p k)
        else .error .checksumMismatch (6 + p.length)] := by
  have hparse := (parse_marker m _ hm).trans (parsePath_of_complete hL Config.startMarker m c k [] rfl)
  have hlen : 5 + (p.length + 1) = 6 + p.length := by omega
  have hdrop : (Config.startMarker :: m :: c :: d :: e :: (p ++ [k])).drop (6 + p.length) = [] :=
    List.drop_eq_nil_of_le (by simp only [List.length_cons, List.length_append, List.length_nil]; omega)
  have hpos : 6 + p.length ≠ 0 := by omega
  rw [← refEvents_turn, hparse, hlen]
  by_cases hk : k = checksum (c :: d :: e :: p)
  · rw [if_pos ((checksumValid_eq_true_iff _ k).mpr hk), if_pos hk, hdrop, ParseResult.events, if_neg hpos]
    rfl
  · rw [(checksumValid_eq_false_iff _ k).mpr hk, if_neg Bool.false_ne_true, if_neg hk, hdrop, ParseResult.events, if_neg hpos]
    rfl

/-- An Async record holds no byte 3, so the zeroed register `seq` gives the same record (R157). -/
theorem frameRecord_sequenceOf (sh : Shape) (c d : Byte) (L : Half) (p : List Byte) (k : Byte) :
    frameRecord sh c (sequenceOf sh d) L p k = frameRecord sh c d L p k := by
  cases sh <;> rfl

theorem joinEvents_frameVerdict (m c d e : Byte) (p : List Byte) (k : Byte) :
    joinEvents p [frameVerdict m c d e p k] =
      ([], [if k = checksum (c :: d :: e :: p)
        then .frame (frameRecord (markerShape m) c d (BitVec.ofNat 16 (p.length + 1)) p k)
        else .error .checksumMismatch (6 + p.length)]) := by
  unfold frameVerdict
  split_ifs
  · rw [← frameRecord_sequenceOf]; rfl
  · rfl

/-- The block's verdict on the frame is the reference's (R104, R160). -/
theorem reports_of_checksum (k : Byte) (hm : IsMarker m) (hL : (frameLengthField (markerShape m) d e).toNat = p.length + 1) :
    Reports (Config.startMarker :: m :: c :: d :: e :: p) k [frameVerdict m c d e p k] := by
  have hrem : refRem (Config.startMarker :: m :: c :: d :: e :: (p ++ [k])) = [] :=
    refRem_of_complete c hm (by simp) (by rw [hL]; simp)
  have hdrop : (Config.startMarker :: m :: c :: d :: e :: p).drop Config.headerLength = p := rfl
  constructor <;> simp only [List.cons_append, hrem] <;> rw [hdrop, joinEvents_frameVerdict]
  case events => rw [refEvents_of_complete k hm hL]; rfl
  case payload => rfl

end Body

/-- A nonzero length reports nothing: the body follows (R158). -/
theorem reports_of_length {m c d : Byte} {g : Regs} {b : Byte} (h : Abstracts [Config.startMarker, m, c, d] g) (hm : IsMarker m)
    (hL : newLength g b ≠ 0) : Reports [Config.startMarker, m, c, d] b [] := by
  rw [newLength_of_abstracts h] at hL
  have hpos : ([] : List Byte).length < (frameLengthField (markerShape m) d b).toNat :=
    Nat.pos_of_ne_zero fun h0 => hL (BitVec.eq_of_toNat_eq h0)
  exact reports_of_header le_rfl (refRem_of_partial c hm hpos)

/-- In CHK the registers hold the verdict on the frame in progress (R160, R171). -/
theorem frameVerdict_of_abstracts {x m c d e : Byte} {p : List Byte} {g : Regs} (h : Abstracts (x :: m :: c :: d :: e :: p) g)
    (hst : g.st = .chk) (k : Byte) :
    frameVerdict m c d e p k =
      if accValid g.acc k then .frame g.shape g.code g.seq g.len k else .error .checksumMismatch (5 + g.len.toNat) := by
  obtain ⟨hshape, hcode, ⟨hseq, -⟩, -, hacc, -, -⟩ := (abstracts_body_iff ..).mp h
  have hlast := h.last_of_chk hst
  have hlen : g.len = BitVec.ofNat 16 (p.length + 1) := by rw [hlast, BitVec.ofNat_toNat, BitVec.setWidth_eq]
  have hsize : 5 + g.len.toNat = 6 + p.length := by omega
  rw [frameVerdict, hsize, hacc, hshape, hcode, hseq, hlen]
  simp only [accValid_sumMod256]

/-- R170, R174: a state rule's events are those its byte adds. -/
theorem StateRule.reports {r : List Byte} {g g' : Regs} {b : Byte} {es : List Event} (h : Abstracts r g)
    (hwait : (parse r).consumed = 0) (hrule : StateRule g b g' es) : Reports r b es := by
  have hform := h.remainderForm hwait
  cases hrule with
  | startFound hst hb =>
    exact reports_of_search (hform.search hst) (by rw [hb]; rfl)
  | badStart hst hb =>
    exact reports_of_search (hform.search hst) (by rw [earlyError_of_ne hb]; rfl)
  | shapeSelected hst hb =>
    rw [hst] at hform
    obtain rfl := hform
    exact reports_of_header (Nat.zero_le _) (refRem_of_header b [] hb (by decide))
  | shapeUnknown hst hFF hFE =>
    rw [hst] at hform
    obtain rfl := hform
    exact reports_of_unknownShape (not_or.mpr ⟨hFF, hFE⟩)
  | code hst =>
    rw [hst] at hform
    obtain ⟨m, hm, rfl⟩ := hform
    exact reports_of_header (by simp) (refRem_of_header m [b] hm (by simp))
  | third hst =>
    rw [hst] at hform
    obtain ⟨m, c, hm, rfl⟩ := hform
    exact reports_of_header (by simp) (refRem_of_header m [c, b] hm (by simp))
  | zeroLength hst hL =>
    rw [hst] at hform
    obtain ⟨m, c, d, hm, rfl⟩ := hform
    exact reports_of_zeroLength hm (by rwa [← newLength_of_abstracts h])
  | emptyPayload hst hL =>
    rw [hst] at hform
    obtain ⟨m, c, d, hm, rfl⟩ := hform
    exact reports_of_length h hm (by rw [hL]; decide)
  | payloadFollows hst h0 =>
    rw [hst] at hform
    obtain ⟨m, c, d, hm, rfl⟩ := hform
    exact reports_of_length h hm h0
  | payload hst =>
    rw [hst] at hform
    obtain ⟨m, c, d, e, p, hm, rfl⟩ := hform
    obtain ⟨-, -, -, hidx, -⟩ := (abstracts_body_iff ..).mp h
    have hmore := h.more_of_pay hst
    rw [h.length_field] at hmore
    exact reports_of_payload hm hidx (by simpa using hmore)
  | commit hst hv | mismatch hst hv =>
    rw [hst] at hform
    obtain ⟨m, c, d, e, p, hm, rfl⟩ := hform
    have hlast := h.last_of_chk hst
    rw [h.length_field] at hlast
    have hreports := reports_of_checksum b hm hlast.symm (c := c)
    rw [frameVerdict_of_abstracts h hst, hv] at hreports
    exact hreports

/-! ### Every step keeps the agreement -/

/-- Nothing of the agreement is about the ports or the environment. -/
theorem Inv.of_same_run {s t : State} (h : Inv s) (hregs : t.regs = s.regs) (hstream : t.stream = s.stream)
    (hhistory : t.history = s.history) (href : t.ref = s.ref) : Inv t := by
  constructor <;> simp only [hregs, hstream, hhistory, href]
  exacts [h.position, h.events, h.payload, h.drained, h.remainder]

/-- The agreement begins with the empty stream. -/
theorem inv_reset : Inv State.reset := ⟨rfl, rfl, rfl, rfl, rfl⟩

theorem inv_of_acceptByte {s : State} {b : Byte} {g : Regs} {es : List Event} (h : Inv s) (hrule : StateRule s.regs b g es) :
    Inv (acceptByte b g es s) := by
  obtain ⟨hevents, hpayload⟩ := hrule.reports h.position (parse_refRem_consumed _)
  constructor <;> simp only [acceptByte_stream, acceptByte_history, acceptByte_regs, acceptByte_ref]
  case position =>
    rw [refRem_append]
    exact hrule.keeps_position h.position (parse_refRem_consumed _)
  case events =>
    rw [joinedEvents_append, h.events, h.payload, refEvents_append, refRem_append, List.append_assoc, hevents, List.append_assoc]
  case payload => rw [pendingPayload_append, h.payload, refRem_append, hpayload]
  case drained => rw [refEvents_append, refEvents_append s.stream, h.remainder, ← List.append_assoc, h.drained]
  case remainder => rw [refRem_append, refRem_append s.stream, h.remainder]

/-- R130: a turn of the reference's loop moves an event from what its buffer still gives to what it has reported. -/
theorem inv_of_takeResult {s : State} (h : Inv s) : Inv (takeResult (parse s.ref.buffer) s) := by
  constructor
  case position => exact h.position
  case events => exact h.events
  case payload => exact h.payload
  case drained => rw [takeResult_ref, takeResult_stream, List.append_assoc, refEvents_turn, h.drained]
  case remainder => rw [takeResult_ref, takeResult_stream, refRem_turn, h.remainder]

/-- Settles O46: the machine right after reset has the run of the reset state. -/
theorem agreementHoldsAtReset : Obligations.AgreementHoldsAtReset :=
  fun _ => inv_reset.of_same_run rfl rfl rfl rfl

/-- Settles O47, by what the step does to the block and to the reference. -/
theorem everyStepKeepsTheAgreement : Obligations.EveryStepKeepsTheAgreement := by
  intro s t hinv hstep
  obtain ⟨s', ⟨hregs, -, hstream, hhistory⟩, href, hcases⟩ := step_cases hstep
  have hinv' := hinv.of_same_run hregs hstream hhistory href
  rcases hcases with rfl | rfl | haccept | rfl
  · exact inv_reset.of_same_run rfl rfl rfl rfl
  · exact hinv'.of_same_run rfl rfl rfl rfl
  · obtain ⟨g, es, hrule, rfl⟩ := exec_accept_cases haccept
    exact inv_of_acceptByte hinv' hrule
  · exact inv_of_takeResult hinv'

end Sys2Proof.Machine
end

section
/-! PROOFS. What one step runs and what one row does (42_fsm_operations.md R150 to R161): the step's selection, the Reset and Idle
steps' inputs, and the state rules register by register. -/

namespace Sys2Proof.Machine

/-! ### The selection of a step (R150, R77) -/

/-- With nothing lined up a step is the step on a free draw, lined up (log 2). -/
theorem step_of_no_stimulus {s : State} (h : s.stimuli = []) :
    step s = step { s with
      draws := s.draws + 1
      stimuli := [if Config.freeParseCall s.draws then .parseCall
        else .edge ⟨Config.freeRst s.draws, Config.freeInValid s.draws, Config.freeInData s.draws⟩] } := by
  obtain ⟨regs, out, inp, stream, history, ref, stimuli, draws⟩ := s
  subst h
  rfl

/-- R121: a call of Parse on fewer than two bytes changes the last result only. -/
theorem step_parseCall_of_short {s : State} {rest : List Stimulus} (h : s.stimuli = .parseCall :: rest)
    (hshort : s.ref.buffer.length < 2) :
    step s = .next { s with stimuli := rest, ref := { s.ref with last := ⟨0, none, none⟩ } } := by
  rw [step_parseCall s rest h, parse_of_short hshort]
  exact congrArg Host.Outcome.next (waitForBytes_eq { s with stimuli := rest })

/-- Settles O6, by the kind of the stimulus. -/
theorem stepRunsTheSelectedRow : Obligations.StepRunsTheSelectedRow := by
  refine ⟨step_edge, fun s rest b0 b1 tail h hbuf => ?_, fun _ _ => step_parseCall_of_short, fun _ => step_of_no_stimulus⟩
  apply step_of_fetch_ok
  rw [fetch_parseCall s rest h, hbuf]
  rfl

theorem step_resetEdge {s : State} {p : InPorts} {rest : List Stimulus} (h : s.stimuli = .edge p :: rest) (hrst : p.rst = true) :
    step s = exec (.reset p.inValid) { s with stimuli := rest, inp := p } := by
  rw [step_edge s p rest h, hrst, decodeKey, decodeCtl_reset]

theorem step_idleEdge {s : State} {p : InPorts} {rest : List Stimulus} (h : s.stimuli = .edge p :: rest) (hrst : p.rst = false)
    (hvalid : p.inValid = false) : step s = exec .idleCycle { s with stimuli := rest, inp := p } := by
  rw [step_edge s p rest h, hrst, hvalid, decodeKey, decodeCtl_idle]

theorem step_acceptEdge {s : State} {p : InPorts} {rest : List Stimulus} (h : s.stimuli = .edge p :: rest) (hrst : p.rst = false)
    (hvalid : p.inValid = true) : step s = exec .accept { s with stimuli := rest, inp := p } := by
  rw [step_edge s p rest h, hrst, hvalid, decodeKey, decodeCtl_accept]

/-- Settles O7: the two bits of the `ctl` key, `rst` before `in_valid`. -/
theorem resetIsTestedFirst : Obligations.ResetIsTestedFirst :=
  fun _ _ _ h => ⟨step_resetEdge h, step_idleEdge h, step_acceptEdge h⟩

/-- Settles O10: neither step's rule reads the ports that its row leaves free. -/
theorem unreadInputsHaveNoEffect : Obligations.UnreadInputsHaveNoEffect :=
  ⟨fun s v _ d _ => ⟨resetBlock { s with inp := ⟨true, v, d⟩ }, step_resetEdge rfl rfl, step_resetEdge rfl rfl⟩,
    fun s d _ => ⟨holdBlock { s with inp := ⟨false, false, d⟩ }, step_idleEdge rfl rfl rfl, step_idleEdge rfl rfl rfl⟩⟩

/-- Settles O14: the step writes the output registers only. -/
theorem idleStepHoldsTheRegisters : Obligations.IdleStepHoldsTheRegisters :=
  fun s => ⟨holdBlock s, exec_idleCycle s, rfl, rfl, rfl, rfl, rfl, rfl, rfl, rfl⟩

/-! ### The dispatch of ACCEPT (R153, R81) -/

/-- Settles O8, state by state: the key's fields read back are the state and the byte. -/
theorem acceptFollowsTheDecodeMap : Obligations.AcceptFollowsTheDecodeMap := by
  intro s
  simp only [exec, execAccept, decodeKey]
  cases s.regs.st with
  | idle =>
    simp only [St.bits, decodeStByte_idle, acceptIdle]
    split <;> rfl
  | shape =>
    simp only [St.bits, decodeStByte_shape, acceptShape]
    split
    · rfl
    split <;> rfl
  | b2 | b3 | b4 | pay | chk | reserved7 => simp [decodeStByte, St.bits]

/-- Settles O25: the rule an Accept step follows has one of the six event lists. -/
theorem eventsOfOneAcceptStep : Obligations.EventsOfOneAcceptStep := by
  intro s t h
  obtain ⟨g, es, hrule, rfl⟩ := exec_accept_cases h
  exact ⟨es, rfl, rfl, hrule.events_form⟩

/-! ### The marker states (R154, R155, R161) -/

/-- Settles O16: one row accepts the start marker, the other reports one error. -/
theorem idleSearchesTheStartMarker : Obligations.IdleSearchesTheStartMarker :=
  ⟨fun s => ⟨_, rfl, rfl, rfl, acceptByte_accepted _ _ _ s⟩, fun b s => ⟨_, rfl, rfl, rfl, reportErrors_accepted b _ _ s⟩⟩

/-- Settles O17: two rows enter a frame of their shape, the third reports two errors. -/
theorem shapeIsSelected : Obligations.ShapeIsSelected :=
  ⟨fun s => ⟨_, rfl, rfl, rfl, acceptByte_accepted _ _ _ s⟩, fun s => ⟨_, rfl, rfl, rfl, acceptByte_accepted _ _ _ s⟩,
    fun b s => ⟨_, rfl, rfl, rfl, reportErrors_accepted b _ _ s⟩⟩

/-- Settles O18: the row's search for the start marker takes one of IDLE's two rows. -/
theorem reservedStateActsAsIdle : Obligations.ReservedStateActsAsIdle := by
  intro b s
  refine ⟨searchMarker b s, rfl, fun hb => ?_, fun hb => ?_⟩
  · subst hb
    exact ⟨congrArg Host.Outcome.next (searchMarker_of_start s).symm, congrArg (·.regs.st) (searchMarker_of_start s)⟩
  · rw [searchMarker_of_other b s hb]
    exact ⟨rfl, rfl⟩

/-! ### The header (R156 to R158) -/

/-- Settles O19: the rule is one acceptance with no event. -/
theorem codeByteStartsTheSum : Obligations.CodeByteStartsTheSum :=
  fun b s => ⟨_, rfl, rfl, rfl, acceptByte_accepted b _ _ s⟩

/-- Settles O20, by the shape: the high byte is replaced and the low byte stays. -/
theorem thirdByteIsSequenceOrLengthHigh : Obligations.ThirdByteIsSequenceOrLengthHigh := by
  intro b s
  have hlen := setLengthHigh_toNat s.regs.len (lengthHighOf s.regs.shape b)
  refine ⟨_, rfl, fun hsh => ?_, fun hsh => ?_, addMod256_toNat _ _, rfl, rfl, rfl, rfl, rfl, acceptByte_accepted b _ _ s⟩
  · refine ⟨congrArg (sequenceOf · b) hsh, hlen.trans ?_⟩
    rw [hsh]
    simp [lengthHighOf]
  · refine ⟨congrArg (sequenceOf · b) hsh, hlen.trans ?_⟩
    rw [hsh, lengthHighOf]

theorem newLength_answer_toNat {g : Regs} (hsh : g.shape = .answer) (b : Byte) : (newLength g b).toNat = b.toNat := by
  rw [newLength, hsh, frameLengthField, zext16_toNat]

theorem newLength_async_toNat {g : Regs} (hsh : g.shape = .async) (b : Byte) :
    (newLength g b).toNat = g.len.toNat / 256 * 256 + b.toNat := by
  rw [newLength, hsh, frameLengthField, concatBytes_toNat, lengthHigh_toNat]

/-- Settles O21, by the assembled length: 0, 1 or more. -/
theorem fourthByteCompletesTheLength : Obligations.FourthByteCompletesTheLength := by
  intro b s
  have hanswer := fun hsh => newLength_answer_toNat (g := s.regs) hsh b
  have hasync := fun hsh => newLength_async_toNat (g := s.regs) hsh b
  have hacc := addMod256_toNat s.regs.acc b
  by_cases h0 : newLength s.regs b = 0
  · have hlen : (newLength s.regs b).toNat = 0 := congrArg BitVec.toNat h0
    exact ⟨_, if_pos h0, hanswer, hasync, hacc, rfl, rfl, rfl, rfl, fun _ => ⟨rfl, rfl, reportErrors_accepted b _ _ s⟩,
      fun h1 => absurd (hlen.symm.trans h1) (by decide), fun h2 => absurd (h2.trans_eq hlen) (by decide)⟩
  by_cases h1 : newLength s.regs b = 1
  · have hlen : (newLength s.regs b).toNat = 1 := congrArg BitVec.toNat h1
    exact ⟨_, (if_neg h0).trans (if_pos h1), hanswer, hasync, hacc, rfl, rfl, rfl, rfl, fun hL => absurd hL h0,
      fun _ => ⟨rfl, rfl, acceptByte_accepted b _ _ s⟩, fun h2 => absurd (h2.trans_eq hlen) (by decide)⟩
  · exact ⟨_, (if_neg h0).trans (if_neg h1), hanswer, hasync, hacc, rfl, rfl, rfl, rfl, fun hL => absurd hL h0,
      fun hL => absurd (BitVec.eq_of_toNat_eq hL) h1, fun _ => ⟨rfl, rfl, acceptByte_accepted b _ _ s⟩⟩

/-! ### The body (R159, R160) -/

/-- Settles O22: the last-payload test in exact integers is `idx + 2 = len`. -/
theorem payloadByteIsStreamed : Obligations.PayloadByteIsStreamed := by
  intro b s
  refine ⟨_, rfl, addMod256_toNat _ _, BitVec.toNat_add _ _, fun hlast => ?_, fun hmore => ?_, rfl, rfl, rfl, rfl, rfl,
    acceptByte_accepted b _ _ s⟩
  · exact if_pos ((isLastPayload_iff _ _).mpr hlast)
  · exact if_neg (mt (isLastPayload_iff _ _).mp hmore)

/-- `err_len` has 17 bits, so that it holds `5 + len` without loss (R22, R160). -/
theorem errLen_toNat (L : Half) : (BitVec.ofNat 17 (5 + L.toNat) : ErrLen).toNat = 5 + L.toNat := by
  have hL := L.isLt
  rw [BitVec.toNat_ofNat]
  omega

/-- Settles O23, by the validator's test. -/
theorem checksumByteCommitsOrAborts : Obligations.ChecksumByteCommitsOrAborts := by
  intro b s
  have hvalid : accValid s.regs.acc b = true ↔ b = s.regs.acc ^^^ 0xFF := beq_iff_eq
  by_cases hv : accValid s.regs.acc b = true
  · exact ⟨_, if_pos hv, rfl, fun _ => ⟨rfl, acceptByte_accepted b _ _ s⟩, fun hb => absurd (hvalid.mp hv) hb⟩
  · exact ⟨_, if_neg hv, rfl, fun hb => absurd (hvalid.mpr hb) hv,
      fun _ => ⟨⟨_, errLen_toNat _, rfl⟩, reportErrors_accepted b _ _ s⟩⟩

end Sys2Proof.Machine
end

section
/-! PROOFS. Runs of the machine (42_fsm_operations.md R170, R174, R175): the agreement on every run from reset, on a stream of
bytes as the special case, and the body of a frame from any state after a header. -/

namespace Sys2Proof.Machine

/-! ### One more step at the end of a run -/

theorem run_snoc {n : Nat} {s t u : State} (hrun : Host.Core.run Sys2Proof.core n s = .next t) (hstep : step t = .next u) :
    Host.Core.run Sys2Proof.core (n + 1) s = .next u := by
  induction n generalizing s with
  | zero =>
    obtain rfl := Host.Outcome.next.inj hrun
    exact run_succ 0 hstep
  | succ n ih =>
    cases hs : step s with
    | next s' =>
      rw [run_succ n hs] at hrun
      rw [run_succ (n + 1) hs]
      exact ih hrun
    | fault r | refused r => simp [Host.Core.run, Sys2Proof.core, hs] at hrun

/-! ### The bytes accepted since the last reset (20_memory.md R50, R232) -/

theorem acceptedSinceReset_edge (xs : List Stimulus) (p : InPorts) :
    acceptedSinceReset (xs ++ [.edge p]) =
      if p.rst then [] else if p.inValid then acceptedSinceReset xs ++ [p.inData] else acceptedSinceReset xs := by
  rw [acceptedSinceReset, List.foldl_append]
  rfl

theorem acceptedSinceReset_parseCall (xs : List Stimulus) : acceptedSinceReset (xs ++ [.parseCall]) = acceptedSinceReset xs := by
  rw [acceptedSinceReset, List.foldl_append]
  rfl

theorem acceptedSinceReset_byteEdges (bs : List Byte) : acceptedSinceReset (bs.map byteEdge) = bs := by
  induction bs using List.reverseRecOn with
  | nil => rfl
  | append_singleton bs b ih =>
    rw [List.map_append, List.map_singleton, byteEdge, acceptedSinceReset_edge, ih]
    rfl

/-- One stimulus makes the stream grow as `acceptedSinceReset` says, and every step completes. -/
theorem step_stream {t : State} {xs : List Stimulus} (hstream : t.stream = acceptedSinceReset xs) {x : Stimulus}
    {rest : List Stimulus} (h : t.stimuli = x :: rest) :
    ∃ u : State, step t = .next u ∧ u.stimuli = rest ∧ u.stream = acceptedSinceReset (xs ++ [x]) := by
  cases x with
  | parseCall =>
    rw [acceptedSinceReset_parseCall]
    exact ⟨_, step_parseCall t rest h, rfl, hstream⟩
  | edge p =>
    rw [acceptedSinceReset_edge]
    cases hrst : p.rst with
    | true => exact ⟨_, (step_resetEdge h hrst).trans (exec_reset ..), rfl, rfl⟩
    | false =>
      cases hvalid : p.inValid with
      | false => exact ⟨_, (step_idleEdge h hrst hvalid).trans (exec_idleCycle _), rfl, hstream⟩
      | true =>
        obtain ⟨g, es, -, hexec⟩ := exec_accept_follows_rule { t with stimuli := rest, inp := p }
        exact ⟨_, (step_acceptEdge h hrst hvalid).trans hexec, rfl, congrArg (· ++ [p.inData]) hstream⟩

/-! ### Every run from reset agrees with the reference (R170) -/

theorem run_from_reset (xs rest : List Stimulus) :
    ∃ t : State, Host.Core.run Sys2Proof.core xs.length { State.reset with stimuli := xs ++ rest } = .next t ∧
      t.stimuli = rest ∧ t.stream = acceptedSinceReset xs ∧ Inv t := by
  induction xs using List.reverseRecOn generalizing rest with
  | nil => exact ⟨_, rfl, rfl, rfl, agreementHoldsAtReset rest⟩
  | append_singleton xs x ih =>
    obtain ⟨t, hrun, hstimuli, hstream, hinv⟩ := ih (x :: rest)
    obtain ⟨u, hstep, hrest, hstream'⟩ := step_stream hstream hstimuli
    refine ⟨u, ?_, hrest, hstream', everyStepKeepsTheAgreement t u hinv hstep⟩
    rw [List.length_append, List.append_assoc]
    exact run_snoc hrun hstep

/-- Settles O52: the run keeps the agreement, whose second clause is the statement. -/
theorem anyRunReportsWhatTheReferenceReports : Obligations.AnyRunReportsWhatTheReferenceReports := by
  intro xs rest
  obtain ⟨t, hrun, hstimuli, hstream, hinv⟩ := run_from_reset xs rest
  exact ⟨t, hrun, hstimuli, hstream, by rw [hinv.events, hstream]⟩

/-- The early error is the one that the reference reports once a further byte is there (R122, R170). -/
theorem earlyError_prefix (r : List Byte) {u : List Byte} (hu : u ≠ []) : earlyError r <+: refEvents (r ++ u) := by
  match r, u with
  | [x], y :: tail =>
    by_cases hx : x = Config.startMarker
    · subst hx
      exact List.nil_prefix
    · rw [earlyError_of_ne hx, refEvents, List.singleton_append, refDrain_badStart x y tail hx]
      exact List.prefix_append [_] _
  | [], _ | _ :: _ :: _, _ => exact List.nil_prefix

/-- Settles O49: a stream of bytes is a run, and a longer stream adds reference events behind the early error. -/
theorem blockReportsWhatTheReferenceReports : Obligations.BlockReportsWhatTheReferenceReports := by
  intro bs rest
  obtain ⟨t, hrun, hstimuli, hstream, hevents⟩ := anyRunReportsWhatTheReferenceReports (bs.map byteEdge) rest
  rw [acceptedSinceReset_byteEdges] at hstream hevents
  rw [List.length_map] at hrun
  refine ⟨t, hrun, hstream, hstimuli, hevents, fun u hu => ?_⟩
  rw [hevents, refEvents_append, List.prefix_append_right_inj]
  exact earlyError_prefix _ hu

/-! ### The body of a frame, from any registers after a header (R174, R175) -/

/-- The registers once the payload `ps` has been taken from `g`. -/
def Regs.afterPayload (g : Regs) (ps : List Byte) : Regs :=
  { g with acc := addMod256 g.acc (sumMod256 ps), idx := g.idx + BitVec.ofNat 16 ps.length, st := .chk }

theorem Regs.afterPayload_nil {g : Regs} (hst : g.st = .chk) : g.afterPayload [] = g := by
  obtain ⟨st, shape, code, seq, len, idx, acc⟩ := g
  subst hst
  simp [Regs.afterPayload, addMod256, sumMod256]

theorem Regs.afterPayload_cons (g : Regs) (b : Byte) (ps : List Byte) (st : St) :
    ({ g with acc := addMod256 g.acc b, idx := g.idx + 1, st := st } : Regs).afterPayload ps = g.afterPayload (b :: ps) := by
  have hacc : addMod256 (addMod256 g.acc b) (sumMod256 ps) = addMod256 g.acc (sumMod256 (b :: ps)) := by
    apply BitVec.eq_of_toNat_eq
    simp only [addMod256_toNat, sumMod256_toNat, byteSum_cons]
    omega
  have hidx : g.idx + 1 + BitVec.ofNat 16 ps.length = g.idx + BitVec.ofNat 16 (b :: ps).length := by
    rw [List.length_cons, Nat.add_comm, BitVec.ofNat_add, ← BitVec.add_assoc]
    rfl
  rw [Regs.afterPayload, Regs.afterPayload, hacc, hidx]

/-- From an index `idx` before the end, the remaining payload bytes are streamed in order and CHK follows (R159, R174). -/
theorem rulesRun_body (ps : List Byte) {g : Regs} (hst : g.st = if ps = [] then .chk else .pay)
    (hlen : g.idx.toNat + ps.length + 1 = g.len.toNat) :
    RulesRun g ps (g.afterPayload ps) (payloadEvents g.idx.toNat ps) := by
  induction ps generalizing g with
  | nil =>
    rw [Regs.afterPayload_nil hst]
    exact .nil g
  | cons b ps ih =>
    rw [if_neg (List.cons_ne_nil b ps)] at hst
    rw [List.length_cons] at hlen
    have hfits := g.len.isLt
    have hnext : (g.idx + 1).toNat = g.idx.toNat + 1 := BitVec.toNat_add_of_lt (by simp; omega)
    have hlast : isLastPayload g.idx g.len = true ↔ ps = [] := by
      rw [isLastPayload_iff, ← List.length_eq_zero_iff]
      omega
    have hrest := ih
      (g := { g with acc := addMod256 g.acc b, idx := g.idx + 1, st := if isLastPayload g.idx g.len then .chk else .pay })
      (by simp only [hlast]) (by dsimp only; omega)
    rw [Regs.afterPayload_cons, hnext] at hrest
    have hindex : g.idx = BitVec.ofNat 16 g.idx.toNat := by rw [BitVec.ofNat_toNat, BitVec.setWidth_eq]
    rw [payloadEvents, ← hindex]
    exact .cons (.payload hst) hrest

/-- R160, R105: in CHK the byte commits the frame when it and the running sum add to 0xFF mod 256. -/
theorem stateRule_of_chk {g : Regs} (hst : g.st = .chk) (k : Byte) :
    StateRule g k { g with st := .idle }
      [if (g.acc.toNat + k.toNat) % 256 = 255 then .frame g.shape g.code g.seq g.len k
        else .error .checksumMismatch (5 + g.len.toNat)] := by
  have hvalid : accValid g.acc k = true ↔ (g.acc.toNat + k.toNat) % 256 = 255 := by
    rw [accValid_iff_addMod256, ← BitVec.toNat_inj, addMod256_toNat]
    rfl
  split_ifs with hsum
  · exact .commit hst (hvalid.mpr hsum)
  · exact .mismatch hst (Bool.not_eq_true _ ▸ mt hvalid.mp hsum)

/-- Settles O29: the payload's rules and then CHK's, run on the machine. -/
theorem bodyRunsToItsChecksum : Obligations.BodyRunsToItsChecksum := by
  intro s p c rest hst hidx hlen hs
  have hidx0 : s.regs.idx.toNat = 0 := congrArg BitVec.toNat hidx
  have hbody := rulesRun_body p hst (by omega)
  have hchk := stateRule_of_chk (g := s.regs.afterPayload p) rfl c
  have hacc : ((s.regs.afterPayload p).acc.toNat + c.toNat) % 256 = (s.regs.acc.toNat + byteSum p + c.toNat) % 256 := by
    rw [Regs.afterPayload, addMod256_toNat, sumMod256_toNat]
    omega
  rw [hidx0] at hbody
  rw [hacc] at hchk
  obtain ⟨t, hrun, hregs, hstimuli, hstream, hhistory⟩ := (hbody.append (.single hchk)).run s rest rfl hs
  rw [List.length_append] at hrun
  exact ⟨t, hrun, by rw [hregs], hstimuli, hstream, by rw [hhistory, List.append_assoc]; rfl⟩

end Sys2Proof.Machine
end

section
/-! PROOFS. Exceptions (60_exceptions.md): no step is refused (R211), every error leaves IDLE (R207), and the reported bytes partition
the stream (R206). -/

namespace Sys2Proof.Machine

/-! ### No operation is refused (R211, R244) -/

/-- Every row has a meaning in every state, whether its state is the current one or not. -/
theorem exec_completes (i : Instr) (s : State) : ∃ t : State, exec i s = .next t := by
  cases i with
  | b4Len b =>
    obtain ⟨t, hexec, -⟩ := fourthByteCompletesTheLength b s
    exact ⟨t, hexec⟩
  | chkByte b =>
    obtain ⟨t, hexec, -⟩ := checksumByteCommitsOrAborts b s
    exact ⟨t, hexec⟩
  | accept =>
    obtain ⟨g, es, -, hexec⟩ := exec_accept_follows_rule s
    exact ⟨_, hexec⟩
  | idleSop | idleBadStart | shapeAnswer | shapeAsync | shapeUnknown | b2Code | b3SeqLenhi | payByte | st7Reserved
  | reset | idleCycle | refAnswer | refAsync | refUnknownShape | refBadStart => exact ⟨_, rfl⟩

/-- Settles O9: the stimulus selects a row, which completes, or the reference waits (R121). -/
theorem everyStepCompletes : Obligations.EveryStepCompletes := by
  intro s
  unfold step
  split
  · exact exec_completes ..
  · exact ⟨_, rfl⟩

/-! ### After an error (R207) -/

theorem StateRule.idle_of_error {g g' : Regs} {b : Byte} {es : List Event} (h : StateRule g b g' es) {k : ErrorKind} {n : Nat}
    (herr : .error k n ∈ es) : g'.st = .idle := by
  cases h with
  | badStart | shapeUnknown | zeroLength | commit | mismatch => rfl
  | startFound | shapeSelected | code | third | emptyPayload | payloadFollows | payload => simp at herr

/-- Settles O27: Reset and Idle show no event, and the ports of an Accept step show the events of its state rule. -/
theorem errorsLeaveIdle : Obligations.ErrorsLeaveIdle := by
  intro s t p rest k n hs h herr
  rw [step_edge s p rest hs] at h
  rcases exec_ctl_cases h with rfl | rfl | haccept
  · exact absurd herr List.not_mem_nil
  · exact absurd herr List.not_mem_nil
  · obtain ⟨g, es, hrule, rfl⟩ := exec_accept_cases haccept
    rw [acceptByte_out, hrule.observe_ports] at herr
    exact hrule.idle_of_error herr

/-! ### Discarded and committed bytes (R206) -/

/-- The stream bytes that a list of reference events accounts for. -/
def totalSize (es : List RefEvent) : Nat := (es.map RefEvent.size).sum

theorem totalSize_append (es fs : List RefEvent) : totalSize (es ++ fs) = totalSize es + totalSize fs := by
  simp [totalSize]

/-- R129: the event of a turn of the drain loop accounts for the bytes that the turn consumes. -/
theorem ParseForm.totalSize_events {r : ParseResult} (h : ParseForm r) : totalSize r.events = r.consumed := by
  cases h with
  | wait | badStart | unknownShape | badLength => rfl
  | frame => simp [totalSize, ParseResult.events, RefEvent.size, frameRecord_payloadLength, Config.headerLength]
  | mismatch => simp [totalSize, ParseResult.events, RefEvent.size]

/-- The reference's events account for every byte that is not in the remainder. -/
theorem totalSize_refEvents (b : List Byte) : totalSize (refEvents b) + (refRem b).length = b.length := by
  induction b using drain_induction with
  | wait b h => rw [refEvents_of_wait h, refRem_of_wait b h]; exact Nat.zero_add _
  | take b h ih =>
    have hle := parse_consumed_le b
    rw [List.length_drop] at ih
    rw [← refEvents_turn, totalSize_append, (parse_form b).totalSize_events, refRem_of_take b h]
    omega

/-- R26: the remainder is the frame in progress up to the offset, but for a lone bad byte, which the early error discards. -/
theorem Abstracts.earlyError_add_offset {r : List Byte} {g : Regs} (h : Abstracts r g) :
    totalSize (earlyError r) + frameOffset g = r.length := by
  match r with
  | [] =>
    have hst : g.st = .idle := h
    rw [frameOffset, hst]; rfl
  | [x] =>
    have hst : g.st = if x = Config.startMarker then .shape else .idle := h
    by_cases hx : x = Config.startMarker
    · rw [if_pos hx] at hst
      rw [hx, earlyError_startMarker, frameOffset, hst]; rfl
    · rw [if_neg hx] at hst
      rw [earlyError_of_ne hx, frameOffset, hst]; rfl
  | [_, _] | [_, _, _] | [_, _, _, _] =>
    obtain ⟨hst, -⟩ := h
    rw [frameOffset, hst]; rfl
  | x :: m :: c :: d :: e :: p =>
    obtain ⟨-, -, -, hidx, -, hle, hst⟩ := (abstracts_body_iff ..).mp h
    have hearly : totalSize (earlyError (x :: m :: c :: d :: e :: p)) = 0 := rfl
    simp only [hearly, List.length_cons]
    split at hst <;> simp only [frameOffset, hst] <;> omega

/-- Settles O50: the reference's events account for all but the remainder, and the early error and the offset for the rest. -/
theorem reportedBytesPartitionTheStream : Obligations.ReportedBytesPartitionTheStream := by
  intro s hinv
  change totalSize (joinedEvents s.history) + frameOffset s.regs = s.stream.length
  rw [hinv.events, totalSize_append, add_assoc, hinv.position.earlyError_add_offset, totalSize_refEvents]

end Sys2Proof.Machine
end

section
/-! PROOFS. Reset and waiting (70_reset_and_hazards.md): a Reset step begins a new run from any state (R230 to R236), a held `rst` is
its last edge (R230), and a frame waits through any number of Idle steps (R243). -/

namespace Sys2Proof.Machine

/-! ### One Reset step (R230, R231) -/

/-- Settles O11: the registers are the literals that the row writes. -/
theorem resetWritesEveryRegister : Obligations.ResetWritesEveryRegister :=
  fun v s => ⟨resetBlock s, exec_reset v s, resetBlock_regs s, resetBlock_out s, ⟨rfl, rfl, rfl⟩,
    (resetBlock_regs s).symm, (resetBlock_out s).symm⟩

theorem step_eq_resetBlock {s : State} {v : Bool} {d : Byte} {rest : List Stimulus} (h : s.stimuli = resetEdge v d :: rest) :
    step s = .next (resetBlock { s with stimuli := rest, inp := ⟨true, v, d⟩ }) :=
  (step_resetEdge h rfl).trans (exec_reset v _)

/-- Settles O12: the edge runs the Reset row, whatever the byte it presents. -/
theorem resetBeginsANewRun : Obligations.ResetBeginsANewRun :=
  fun _ _ _ _ h => ⟨_, step_eq_resetBlock h, resetBlock_stream _, resetBlock_history _, rfl, resetBlock_ref _, resetBlock_stimuli _⟩

/-! ### Any number of Reset steps (R230) -/

/-- A Reset step forgets an earlier one: both leave the same environment, and reset the rest. -/
theorem step_reset_after_resetBlock (s : State) (p : InPorts) (v : Bool) (d : Byte) (rest : List Stimulus) :
    step { resetBlock { s with inp := p } with stimuli := resetEdge v d :: rest } =
      step { s with stimuli := resetEdge v d :: rest } := by
  rw [step_eq_resetBlock rfl, step_eq_resetBlock rfl]
  rfl

/-- Settles O13, by induction on the edges before the last: the step after each of them does not see it. -/
theorem heldResetIsOneReset : Obligations.HeldResetIsOneReset := by
  intro s vs v d rest
  induction vs generalizing s with
  | nil => exact (run_succ 0 (step_eq_resetBlock rfl)).trans (step_eq_resetBlock rfl).symm
  | cons x vs ih =>
    have hforget := step_reset_after_resetBlock s ⟨true, x.1, x.2⟩ v d rest
    exact (run_succ (vs.length + 1) (step_eq_resetBlock rfl)).trans ((ih _).trans hforget)

/-! ### Any number of Idle steps (R152, R243) -/

theorem step_eq_holdBlock {s : State} {d : Byte} {rest : List Stimulus} (h : s.stimuli = idleEdge d :: rest) :
    step s = .next (holdBlock { s with stimuli := rest, inp := ⟨false, false, d⟩ }) :=
  (step_idleEdge h rfl rfl).trans (exec_idleCycle _)

/-- Settles O15, by induction on the edges from the last: it writes the ports 0 and keeps what those before it kept. -/
theorem frameWaitsThroughIdleSteps : Obligations.FrameWaitsThroughIdleSteps := by
  intro s ds
  induction ds using List.reverseRecOn with
  | nil => exact fun rest h => ⟨s, rfl, rfl, rfl, rfl, rfl, h, fun hne => absurd rfl hne⟩
  | append_singleton ds d ih =>
    intro rest h
    rw [List.map_append, List.append_assoc] at h
    obtain ⟨t, hrun, hregs, hstream, hhistory, href, hstimuli, -⟩ := ih (idleEdge d :: rest) h
    rw [List.length_append]
    exact ⟨_, run_snoc hrun (step_eq_holdBlock hstimuli), hregs, hstream, hhistory, href, rfl, fun _ => rfl⟩

end Sys2Proof.Machine
end
